-- ==== Sys2Proof/Word.lean ====
section
/-! DEFINITION. The two word types of the block: the byte and the 16-bit word (spec 00_scope.md R9). -/

namespace Sys2Proof

/-- A byte, `u8` of R9. -/
abbrev Byte := BitVec 8

/-- A 16-bit value, `u16` of R9: a CRC value or a request word. -/
abbrev Word := BitVec 16

end Sys2Proof
end

