-- ==== Sys2Proof/Machine/Bits.lean ====
section
/-! DEFINITION. Bit-field, byte-order and sign-extension helpers (00_scope.md R9, R10; 20_memory.md R43, R44;
30_encoding.md R61). -/

namespace Sys2Proof

/-- `v[7:0]` of a 16-bit value. -/
def loByte (v : Word) : Byte := v.extractLsb' 0 8

/-- `v[15:8]` of a 16-bit value. -/
def hiByte (v : Word) : Byte := v.extractLsb' 8 8

/-- The 16-bit value of two bytes, the least significant first: `lo | (hi << 8)` (R43, R44). -/
def wordOfBytes (lo hi : Byte) : Word := lo.zeroExtend 16 ||| (hi.zeroExtend 16 <<< 8)

/-- `sext_16` of a signed byte (R10). -/
def sext16 (v : Byte) : Word := v.signExtend 16

/-- Field OP of a request word, `w[7:0]` (R61). -/
def reqOp (w : Word) : Nat := (w.extractLsb' 0 8).toNat

/-- Field A of a request word, `w[8]` (R61). -/
def reqA (w : Word) : Bool := w.getLsbD 8

/-- Field RES of a request word, `w[15:9]` (R61). -/
def reqRes (w : Word) : Nat := (w.extractLsb' 9 7).toNat

end Sys2Proof
end

