-- ==== Sys2Proof/Syntax.lean ====
section
/-! DEFINITION. Syntax: one constructor of `Instr` per row of spec/opcode_table.json, and the forms in which
requests and commands are presented to the block (30_encoding.md R60, R61, R62; 45_protocol.md). -/

namespace Sys2Proof

/-- The ack selector of BUILD and SEND: field A of the request word, 0 = ack, 1 = no-ack (R61). -/
inductive AckSel where
  | ack
  | noack
  deriving DecidableEq, Repr

/-- The operand data that is presented beside a request word (R61, R62): a byte list, the time input `NOW`
(10_state.md R32), the level of `STATUS_IN` (R33) and the RX byte input (R34). A request reads the operands
that R62 lists for it and no others. -/
structure PortData where
  /-- the byte list: `s`, `p` or `b` of R62 -/
  bytes : List Byte
  /-- the value on the time input `NOW` -/
  now : Nat
  /-- the level on the status pin, `true` = 1 = high -/
  status : Bool
  /-- a received byte, or none -/
  rxByte : Option Byte
  deriving DecidableEq, Repr

/-- No operand: every list empty, every number and level 0, no RX byte. -/
def PortData.zero : PortData := ⟨[], 0, false, none⟩

/-- The instructions: the requests of R62 and the command bytes of R60, one constructor per row of
spec/opcode_table.json, each with its operands. -/
inductive Instr where
  /-- CRC (R72): the CRC of a byte list. -/
  | crc (s : List Byte)
  /-- BUILD with the ack flag (R74). -/
  | buildAck (p : List Byte)
  /-- BUILD with the no-ack flag (R74). -/
  | buildNoack (p : List Byte)
  /-- VALIDATE (R76). -/
  | validate (b : List Byte)
  /-- SEND with the ack flag (R96). -/
  | sendAck (p : List Byte) (now : Nat) (st : Bool)
  /-- SEND with the no-ack flag (R96). -/
  | sendNoack (p : List Byte) (now : Nat) (st : Bool)
  /-- SEND_RAW (R97). -/
  | sendRaw (bs : List Byte) (now : Nat) (st : Bool)
  /-- POLL (R90): at most one received byte. -/
  | poll (now : Nat) (x : Option Byte)
  /-- TICK (R98). -/
  | tick (now : Nat) (st : Bool)
  /-- RESET (R131). -/
  | reset (now : Nat)
  /-- Command 0x14, outbound (R116): set pairing mode. -/
  | cmdSetPairing (host timeout : Byte) (now : Nat) (st : Bool)
  /-- Command 0x15, outbound (R117): open advertising. -/
  | cmdOpenAdv (host timeout : Byte) (now : Nat) (st : Bool)
  /-- Command 0x16, outbound (R117): close advertising. -/
  | cmdCloseAdv (now : Nat) (st : Bool)
  /-- Command 0x21, outbound (R110): the 8-byte keyboard report `r`. -/
  | cmdKeyboard (r : List Byte) (now : Nat) (st : Bool)
  /-- Command 0x22, outbound (R111): modifiers and the NKRO bitmap. -/
  | cmdNkro (mods : Byte) (bitmap : List Byte) (now : Nat) (st : Bool)
  /-- Command 0x23, outbound (R112): the 16-bit consumer usage `u`. -/
  | cmdConsumer (u : Word) (now : Nat) (st : Bool)
  /-- Command 0x24, outbound (R113): the 16-bit system usage `u`. -/
  | cmdSystem (u : Word) (now : Nat) (st : Bool)
  /-- Command 0x25, outbound (R114): buttons, signed 8-bit X and Y, the two wheels. -/
  | cmdMouse (buttons x y v h : Byte) (now : Nat) (st : Bool)
  /-- Command 0x26, inbound (R106): LED notification; `rest` is the payload after the command byte. -/
  | cmdLed (rest : List Byte)
  /-- Command 0x27, outbound (R115): raw-HID data. -/
  | cmdRawHidOut (d : List Byte) (now : Nat) (st : Bool)
  /-- Command 0x27, inbound (R107): raw-HID data. -/
  | cmdRawHidIn (d : List Byte)
  /-- Command 0xA1, inbound (R108): link status; `rest` is the payload after the command byte. -/
  | cmdLinkStatusA1 (rest : List Byte)
  /-- Command 0xA2, inbound (R108). -/
  | cmdLinkStatusA2 (rest : List Byte)
  /-- Command 0xA3, inbound (R108). -/
  | cmdLinkStatusA3 (rest : List Byte)
  /-- Command 0xA4, inbound (R108). -/
  | cmdLinkStatusA4 (rest : List Byte)
  /-- Command 0xA5, inbound (R108). -/
  | cmdLinkStatusA5 (rest : List Byte)
  /-- Command 0xA7, inbound (R108). -/
  | cmdLinkStatusA7 (rest : List Byte)
  deriving DecidableEq, Repr

/-- What an instruction looks like before it is decoded. A request is a request word with its operand data
(R61). A report is a call of a report encoder: the payload it hands to SEND, whose first byte is the command
byte (45_protocol.md section 2), with the `NOW` and `STATUS_IN` of that SEND. A notification is the payload of a
frame delivered to the dispatcher (45_protocol.md section 1). -/
inductive Encoded where
  | request (w : Word) (d : PortData)
  | report (payload : List Byte) (now : Nat) (st : Bool)
  | notify (payload : List Byte)
  deriving DecidableEq, Repr

end Sys2Proof
end

