-- ==== Sys2Proof/Config.lean ====
section
/-! DEFINITION. The configuration registers (00_scope.md R8, 10_state.md R21), the reference configuration, and
the opaque constants that stand for the parameters the spec leaves OPEN without a reference value. -/

namespace Sys2Proof

/-- The parameters of R8, one field each. R21: fixed when the block is instantiated, read-only at run time. -/
structure Config where
  /-- `HEADER1` -/
  header1 : Byte
  /-- `HEADER2` -/
  header2 : Byte
  /-- `ACKV` -/
  ackv : Byte
  /-- `NOACKV` -/
  noackv : Byte
  /-- `TERMINATOR` -/
  terminator : Byte
  /-- `FRAME_BUF_SIZE` -/
  frameBufSize : Nat
  /-- `MAX_PAYLOAD` -/
  maxPayload : Nat
  /-- `CRC_SEED` -/
  crcSeed : Word
  /-- `CRC_POLY` -/
  crcPoly : Word
  /-- `TOGGLE_MS` -/
  toggleMs : Nat
  /-- `DEBOUNCE_MS` -/
  debounceMs : Nat
  /-- `WAKE_TIMEOUT_MS` -/
  wakeTimeoutMs : Nat
  /-- `INACT_MS` -/
  inactMs : Nat
  /-- `TIMER_WIDTH` -/
  timerWidth : Nat
  /-- `READY_LEVEL`, `true` = 1 -/
  readyLevel : Bool
  /-- `WAKE_IDLE_LEVEL`, `true` = 1 = high; no rule of the 4N files reads it (log entry 4) -/
  wakeIdleLevel : Bool
  /-- `DEFAULT_INTERVAL_MS` -/
  defaultIntervalMs : Nat
  /-- `DEGRADED_DELTA_MS` -/
  degradedDeltaMs : Nat
  /-- `POOR_RETRY` -/
  poorRetry : Nat
  /-- `LED_RESPONSE`: the ack selector and the payload of the response frame -/
  ledResponse : AckSel × List Byte
  /-- `NKRO_BITMAP_BYTES` -/
  nkroBitmapBytes : Nat
  deriving DecidableEq, Repr

/-- `DEFAULT_INTERVAL_MS`, OPEN in the spec (D30, I13): a free value, nothing constrains it (log entry 2). -/
opaque Config.openDefaultIntervalMs : Nat

/-- The ack selector of `LED_RESPONSE`, OPEN in the spec (D29, I12): a free value (log entry 2). -/
opaque Config.openLedFlag : Bool

/-- The payload of `LED_RESPONSE`, OPEN in the spec (D29, I12): a free value (log entry 2). -/
opaque Config.openLedPayload : List Byte

/-- `NKRO_BITMAP_BYTES`, OPEN in the spec (D31, I14): a free value within the bound of D31,
`2 + NKRO_BITMAP_BYTES <= MAX_PAYLOAD`, so at most 119 (log entry 2). -/
opaque Config.openNkroBitmapBytes : Fin 120

/-- The reference configuration: the value column of R8 (log entry 1). The three parameters without a reference value are the
opaque constants above. -/
def Config.reference : Config where
  header1 := 0xAA
  header2 := 0x55
  ackv := 0x00
  noackv := 0x01
  terminator := 0x0D
  frameBufSize := 128
  maxPayload := 121
  crcSeed := 0xFFFF
  crcPoly := 0xA001
  toggleMs := 20
  debounceMs := 5
  wakeTimeoutMs := 100
  inactMs := 1500
  timerWidth := 32
  readyLevel := true
  wakeIdleLevel := true
  defaultIntervalMs := Config.openDefaultIntervalMs
  degradedDeltaMs := 3
  poorRetry := 5
  ledResponse := (if Config.openLedFlag then .noack else .ack, Config.openLedPayload)
  nkroBitmapBytes := Config.openNkroBitmapBytes.val

/-- The constraints every configuration must meet: R8's own (`MAX_PAYLOAD + 7 <= FRAME_BUF_SIZE`,
`MAX_PAYLOAD <= 255`, `TIMER_WIDTH >= 11`; the byte parameters are bytes by their type) and R111's bound on the NKRO
bitmap. -/
abbrev Config.Wf (c : Config) : Prop :=
  c.maxPayload + 7 ≤ c.frameBufSize ∧ c.maxPayload ≤ 255 ∧ 11 ≤ c.timerWidth ∧
    2 + c.nkroBitmapBytes ≤ c.maxPayload

end Sys2Proof
end

