-- ==== Sys2Proof/WellFormed.lean ====
section
/-! DEFINITION. Which operands an instruction may carry under a configuration: times that fit the time input
(10_state.md R32), the report widths of 45_protocol.md section 2, and inbound payloads a frame can hold (R57). -/

namespace Sys2Proof

/-- A time operand is a value of the `TIMER_WIDTH`-bit input `NOW` (R32). -/
def Config.timeOk (c : Config) (now : Nat) : Bool := decide (now < 2 ^ c.timerWidth)

/-- The payload after the command byte of a delivered frame: the frame's `L` counts the command byte too and is at
most `MAX_PAYLOAD` (R57). -/
def Config.restOk (c : Config) (rest : List Byte) : Bool := decide (rest.length + 1 ≤ c.maxPayload)

/-- Well-formed operands, instruction by instruction. -/
def wellFormed (c : Config) : Instr → Bool
  | .crc _ => true
  | .buildAck _ => true
  | .buildNoack _ => true
  | .validate _ => true
  | .sendAck _ now _ => c.timeOk now
  | .sendNoack _ now _ => c.timeOk now
  | .sendRaw _ now _ => c.timeOk now
  | .poll now _ => c.timeOk now
  | .tick now _ => c.timeOk now
  | .reset now => c.timeOk now
  | .cmdSetPairing _ _ now _ => c.timeOk now
  | .cmdOpenAdv _ _ now _ => c.timeOk now
  | .cmdCloseAdv now _ => c.timeOk now
  | .cmdKeyboard r now _ => c.timeOk now && decide (r.length = 8)
  | .cmdNkro _ bitmap now _ => c.timeOk now && decide (bitmap.length = c.nkroBitmapBytes)
  | .cmdConsumer _ now _ => c.timeOk now
  | .cmdSystem _ now _ => c.timeOk now
  | .cmdMouse _ _ _ _ _ now _ => c.timeOk now
  | .cmdLed rest => c.restOk rest
  | .cmdRawHidOut d now _ => c.timeOk now && decide (d.length + 1 ≤ c.maxPayload)
  | .cmdRawHidIn d => c.restOk d
  | .cmdLinkStatusA1 rest => c.restOk rest
  | .cmdLinkStatusA2 rest => c.restOk rest
  | .cmdLinkStatusA3 rest => c.restOk rest
  | .cmdLinkStatusA4 rest => c.restOk rest
  | .cmdLinkStatusA5 rest => c.restOk rest
  | .cmdLinkStatusA7 rest => c.restOk rest

end Sys2Proof
end

