-- ==== Sys2Proof/Decode.lean ====
section
/-! DEFINITION. The decoder, total on every request word (30_encoding.md R64), every report payload and every
inbound payload, and the encoder that writes the same tables the other way (R60, R61, R62; 45_protocol.md). -/

namespace Sys2Proof

/-- Why something presented to the block is not an instruction. -/
inductive DecodeError where
  /-- the request word is illegal (R63) -/
  | illegalRequest
  /-- the payload is empty: it has no command byte (R105, D27) -/
  | noCommandByte
  /-- an encoder call whose command byte no encoder has (R60, 45_protocol.md section 2) -/
  | notAReport (cmd : Byte)
  /-- an encoder call whose payload does not have the layout of its command byte (R110 to R117) -/
  | badLayout (cmd : Byte)
  /-- an inbound command byte the dispatcher does not react to (R104, R109) -/
  | unknownCommand (cmd : Byte)
  deriving DecidableEq, Repr

/-- The value the `TIMER_WIDTH`-bit time input carries when `now` is offered on it (R10, R32). -/
def Config.sample (c : Config) (now : Nat) : Nat := now % 2 ^ c.timerWidth

/-- `decode(w)` of R64 with the operands of R62: total on all 65536 words. -/
def decodeRequest (c : Config) (w : Word) (d : PortData) : Except DecodeError Instr :=
  if reqRes w ≠ 0 then .error .illegalRequest
  else
    match reqOp w, reqA w with
    | 0x01, false => .ok (.crc d.bytes)
    | 0x02, false => .ok (.buildAck d.bytes)
    | 0x02, true => .ok (.buildNoack d.bytes)
    | 0x03, false => .ok (.validate d.bytes)
    | 0x04, false => .ok (.sendAck d.bytes (c.sample d.now) d.status)
    | 0x04, true => .ok (.sendNoack d.bytes (c.sample d.now) d.status)
    | 0x05, false => .ok (.sendRaw d.bytes (c.sample d.now) d.status)
    | 0x06, false => .ok (.poll (c.sample d.now) d.rxByte)
    | 0x07, false => .ok (.tick (c.sample d.now) d.status)
    | 0x08, false => .ok (.reset (c.sample d.now))
    | _, _ => .error .illegalRequest

/-- An encoder call read from the payload it hands to SEND (R110 to R117). -/
def decodeReport (c : Config) (payload : List Byte) (now : Nat) (st : Bool) : Except DecodeError Instr :=
  match payload with
  | [] => .error .noCommandByte
  | cmd :: rest =>
    let t := c.sample now
    match cmd.toNat with
    | 0x14 =>
      match rest with
      | [host, timeout] => .ok (.cmdSetPairing host timeout t st)
      | _ => .error (.badLayout cmd)
    | 0x15 =>
      match rest with
      | [host, timeout] => .ok (.cmdOpenAdv host timeout t st)
      | _ => .error (.badLayout cmd)
    | 0x16 => if rest = [0x00] then .ok (.cmdCloseAdv t st) else .error (.badLayout cmd)
    | 0x21 => if rest.length = 8 then .ok (.cmdKeyboard rest t st) else .error (.badLayout cmd)
    | 0x22 =>
      match rest with
      | mods :: bitmap =>
        if bitmap.length = c.nkroBitmapBytes then .ok (.cmdNkro mods bitmap t st) else .error (.badLayout cmd)
      | [] => .error (.badLayout cmd)
    | 0x23 =>
      match rest with
      | [lo, hi] => .ok (.cmdConsumer (wordOfBytes lo hi) t st)
      | _ => .error (.badLayout cmd)
    | 0x24 =>
      match rest with
      | [lo, hi] => .ok (.cmdSystem (wordOfBytes lo hi) t st)
      | _ => .error (.badLayout cmd)
    | 0x25 =>
      match rest with
      | [buttons, xlo, xhi, ylo, yhi, v, h] =>
        if wordOfBytes xlo xhi = sext16 xlo ∧ wordOfBytes ylo yhi = sext16 ylo then
          .ok (.cmdMouse buttons xlo ylo v h t st)
        else .error (.badLayout cmd)
      | _ => .error (.badLayout cmd)
    | 0x27 => .ok (.cmdRawHidOut rest t st)
    | _ => .error (.notAReport cmd)

/-- The dispatcher's reading of a delivered frame's payload (R104, R105): exactly eight command bytes. -/
def decodeNotify (payload : List Byte) : Except DecodeError Instr :=
  match payload with
  | [] => .error .noCommandByte
  | cmd :: rest =>
    match cmd.toNat with
    | 0x26 => .ok (.cmdLed rest)
    | 0x27 => .ok (.cmdRawHidIn rest)
    | 0xA1 => .ok (.cmdLinkStatusA1 rest)
    | 0xA2 => .ok (.cmdLinkStatusA2 rest)
    | 0xA3 => .ok (.cmdLinkStatusA3 rest)
    | 0xA4 => .ok (.cmdLinkStatusA4 rest)
    | 0xA5 => .ok (.cmdLinkStatusA5 rest)
    | 0xA7 => .ok (.cmdLinkStatusA7 rest)
    | _ => .error (.unknownCommand cmd)

/-- The decoder. -/
def decode (c : Config) : Encoded → Except DecodeError Instr
  | .request w d => decodeRequest c w d
  | .report payload now st => decodeReport c payload now st
  | .notify payload => decodeNotify payload

/-- The request word of selector `op` and ack selector `a` (R61, R62). -/
def requestWord (op : Nat) (a : AckSel) : Word :=
  match a with
  | .ack => BitVec.ofNat 16 op
  | .noack => BitVec.ofNat 16 (op + 256)

/-- The encoder: the form in which an instruction is presented, from the tables of R60, R61, R62 and R110 to R117.
Operands a request does not have are 0, empty or none. -/
def encode : Instr → Encoded
  | .crc s => .request (requestWord 0x01 .ack) ⟨s, 0, false, none⟩
  | .buildAck p => .request (requestWord 0x02 .ack) ⟨p, 0, false, none⟩
  | .buildNoack p => .request (requestWord 0x02 .noack) ⟨p, 0, false, none⟩
  | .validate b => .request (requestWord 0x03 .ack) ⟨b, 0, false, none⟩
  | .sendAck p now st => .request (requestWord 0x04 .ack) ⟨p, now, st, none⟩
  | .sendNoack p now st => .request (requestWord 0x04 .noack) ⟨p, now, st, none⟩
  | .sendRaw bs now st => .request (requestWord 0x05 .ack) ⟨bs, now, st, none⟩
  | .poll now x => .request (requestWord 0x06 .ack) ⟨[], now, false, x⟩
  | .tick now st => .request (requestWord 0x07 .ack) ⟨[], now, st, none⟩
  | .reset now => .request (requestWord 0x08 .ack) ⟨[], now, false, none⟩
  | .cmdSetPairing host timeout now st => .report [0x14, host, timeout] now st
  | .cmdOpenAdv host timeout now st => .report [0x15, host, timeout] now st
  | .cmdCloseAdv now st => .report [0x16, 0x00] now st
  | .cmdKeyboard r now st => .report (0x21 :: r) now st
  | .cmdNkro mods bitmap now st => .report (0x22 :: mods :: bitmap) now st
  | .cmdConsumer u now st => .report [0x23, loByte u, hiByte u] now st
  | .cmdSystem u now st => .report [0x24, loByte u, hiByte u] now st
  | .cmdMouse buttons x y v h now st =>
    .report [0x25, buttons, loByte (sext16 x), hiByte (sext16 x), loByte (sext16 y), hiByte (sext16 y), v, h] now st
  | .cmdLed rest => .notify (0x26 :: rest)
  | .cmdRawHidOut d now st => .report (0x27 :: d) now st
  | .cmdRawHidIn d => .notify (0x27 :: d)
  | .cmdLinkStatusA1 rest => .notify (0xA1 :: rest)
  | .cmdLinkStatusA2 rest => .notify (0xA2 :: rest)
  | .cmdLinkStatusA3 rest => .notify (0xA3 :: rest)
  | .cmdLinkStatusA4 rest => .notify (0xA4 :: rest)
  | .cmdLinkStatusA5 rest => .notify (0xA5 :: rest)
  | .cmdLinkStatusA7 rest => .notify (0xA7 :: rest)

/-- How many zero operand bytes complete a bare command byte to a payload of its layout: the fixed lengths of R110
and R112 to R117, the modifiers and a bitmap of `NKRO_BITMAP_BYTES` for NKRO (R111), one sub-status or lock-state byte for an inbound notification,
none for raw HID. -/
def zeroOperandBytes (cmd : Nat) : Nat :=
  match cmd with
  | 0x14 => 2
  | 0x15 => 2
  | 0x16 => 1
  | 0x21 => 8
  | 0x22 => 1 + Config.reference.nkroBitmapBytes
  | 0x23 => 2
  | 0x24 => 2
  | 0x25 => 7
  | 0x26 => 1
  | 0xA1 => 1
  | 0xA2 => 1
  | 0xA3 => 1
  | 0xA4 => 1
  | 0xA5 => 1
  | 0xA7 => 1
  | _ => 0

/-- A bare command byte with zero operand bytes, as a payload. -/
def tablePayload (w : Nat) : List Byte :=
  BitVec.ofNat 8 w :: List.replicate (zeroOperandBytes (w % 256)) 0x00

/-- A table row's bits as they are presented: a 16-bit row is a request word with zero operands; an 8-bit row is a
command byte, read as an encoder call where one exists and as a delivered frame's command byte otherwise (the two
rows of 0x27 have the same bits: log entry 9). -/
def tableForm (nbits w : Nat) : Encoded :=
  if nbits = 8 then
    match decodeReport Config.reference (tablePayload w) 0 false with
    | .ok _ => .report (tablePayload w) 0 false
    | .error _ => .notify (tablePayload w)
  else .request (BitVec.ofNat 16 w) PortData.zero

/-- The instruction the decoder reads from a table row's bits, operands zero. -/
def decodeTableWord (nbits w : Nat) : Option Instr :=
  match decode Config.reference (tableForm nbits w) with
  | .ok i => some i
  | .error _ => none

end Sys2Proof
end

