-- ==== Sys2Proof/Machine/State.lean ====
section
/-! DEFINITION. The state of the block (10_state.md), its ports and the collaborator's queues as plain data, the
reasons a step can stop, and the state after reset (R39, R131, R132). -/

namespace Sys2Proof.Machine

open Sys2Proof

/-- Why the machine stops with a fault. -/
inductive Fault where
  /-- Raised by the RX buffer operations for an address outside `0 .. FRAME_BUF_SIZE - 1` (R41: no such byte
  exists). Safe: it needs a state that breaks the framer invariant R27 or the constraints of R8. -/
  | rxAddress
  /-- Raised by the TX buffer operations for an address outside `0 .. FRAME_BUF_SIZE - 1` (R42: no such byte
  exists). Safe: it needs a state with `TXLEN > FRAME_BUF_SIZE` (R30) or a configuration that breaks R8. -/
  | txAddress
  deriving DecidableEq, Repr

/-- Why the machine refuses a step. -/
inductive Refusal where
  /-- An instruction of the opcode table without a meaning, by its mnemonic. No arm of `exec` raises it. Safe. -/
  | notModelled (mnemonic : String)
  /-- Raised by the fetch of a report-encoder call whose payload no encoder of 45_protocol.md section 2 makes: it is
  no instruction, and the spec gives it no effect (log entry 10). Safe. -/
  | notAnEncoderCall
  deriving DecidableEq, Repr

/-- The framer state `FST` (R22). -/
inductive Fst where
  | idle
  | sawHeader1
  | sawHeader2
  | sawLength
  | accumulating
  deriving DecidableEq, Repr

/-- The wake state `WST` (R28). -/
inductive Wst where
  | idle
  | waking
  deriving DecidableEq, Repr

/-- The result codes and event values of R119. The reserved codes 0x0D to 0xFF are never produced and have no
constructor. -/
inductive Code where
  | ok
  | headerMismatch
  | crcMismatch
  | terminatorMismatch
  | wakeTimeout
  | payloadTooLong
  | malformed
  | illegalRequest
  | aborted
  | pending
  | inactivityReset
  | sent
  | frameValid
  deriving DecidableEq, Repr

/-- The result data of a response (R11, R119). -/
inductive Data where
  /-- no result data -/
  | none
  /-- the 16-bit result of CRC (R72) -/
  | crc (v : Word)
  /-- the built frame of BUILD (R74) -/
  | frame (f : List Byte)
  /-- one event value: `Sent`, `WakeTimeout` or `Aborted` (R95, R98, R131) -/
  | event (c : Code)
  /-- the RX events of a POLL, in the order they happened (R91) -/
  | events (cs : List Code)
  deriving DecidableEq, Repr

/-- A call the dispatcher makes on a downstream collaborator (R103). -/
inductive Call where
  /-- `raw_hid_receive(payload, length)` (R107) -/
  | rawHidReceive (payload : List Byte) (length : Nat)
  /-- `set_retry_count(n)` (R108) -/
  | setRetryCount (n : Nat)
  /-- `set_report_interval_ms(ms)` (R108) -/
  | setReportIntervalMs (ms : Nat)
  deriving DecidableEq, Repr

/-- One element of the observation of a run (R16). -/
inductive Obs where
  /-- a request was held: not accepted in this step, to be offered again (R11, R94; log entry 6) -/
  | held
  /-- a request ended with a result code and result data -/
  | response (code : Code) (data : Data)
  /-- bytes appended to the TX byte output by one transmit step (R35, R93) -/
  | tx (bytes : List Byte)
  /-- a frame delivered on the frame-out port (R36) -/
  | frameOut (f : List Byte)
  /-- the level of `WAKE_OUT` changed, at the time `now` (R16, R29) -/
  | wakeOut (now : Nat) (level : Bool)
  /-- the dispatcher called a downstream collaborator (R103) -/
  | call (c : Call)
  deriving DecidableEq, Repr

/-- One thing the environment makes happen next (R7, R17, R37, R103). The list of offers is the environment's
schedule: any interleaving of the agents is some list (D22). -/
inductive Offer where
  /-- a request on the request port, with its operand data (R37, R61) -/
  | request (w : Word) (d : PortData)
  /-- a report encoder is called and issues its SEND (45_protocol.md section 2) -/
  | report (payload : List Byte) (now : Nat) (st : Bool)
  /-- the dispatcher takes the oldest frame delivered to it (R105) -/
  | dispatch
  /-- the dispatcher offers the oldest SEND it has issued and not yet had accepted (R106) -/
  | issued (now : Nat) (st : Bool)
  deriving DecidableEq, Repr

/-- A byte storage space (R40): (address, byte) pairs in one canonical form, addresses strictly rising and no byte
0; an address that is not listed reads as 0, the reset value of R39. -/
abbrev Memory := List Host.Cell

/-- The state: every element of R39, then the ports and the collaborator's queues. -/
structure State where
  /-- the configuration registers (R21) -/
  cfg : Config
  /-- `FST`, the framer state (R22) -/
  fst : Fst
  /-- `RXBUF`, the accumulation buffer, space RX (R23, R41) -/
  rxbuf : Memory
  /-- `RXIDX`, the accumulation index (R24) -/
  rxidx : Nat
  /-- `RXEXP`, the expected total frame length (R25) -/
  rxexp : Nat
  /-- `T_LASTRX`, the time of the last POLL that carried a byte (R26) -/
  tLastRx : Nat
  /-- `WST`, the wake state (R28) -/
  wst : Wst
  /-- `WAKE_OUT`, the level on the wake output pin, `true` = 1 = high (R29) -/
  wakeOut : Bool
  /-- `TXBUF`, the transmit scratch buffer, space TX (R30, R42) -/
  txbuf : Memory
  /-- `TXLEN`, the count of valid bytes of `TXBUF` (R30) -/
  txlen : Nat
  /-- `T_START`, the time the wake was entered (R31) -/
  tStart : Nat
  /-- `T_TOGGLE`, the time of the last toggle (R31) -/
  tToggle : Nat
  /-- `T_HOLD`, the time the ready hold was last broken (R31) -/
  tHold : Nat
  /-- the environment's schedule: what it offers from now on, in order (R7, R17, R37) -/
  offers : List Offer
  /-- frames delivered on the frame-out port that the dispatcher has not taken yet, oldest first (R36, R105) -/
  frames : List (List Byte)
  /-- SENDs issued by the dispatcher and not yet accepted, oldest first (R106) -/
  issued : List (AckSel × List Byte)
  /-- the observation of the run so far, oldest first (R16) -/
  trace : List Obs
  deriving DecidableEq, Repr

/-- The state at power-on and after RESET (R39, R132), with the reference configuration (R8), nothing offered,
nothing delivered and nothing observed. -/
def State.reset : State where
  cfg := Config.reference
  fst := .idle
  rxbuf := []
  rxidx := 0
  rxexp := 0
  tLastRx := 0
  wst := .idle
  wakeOut := true
  txbuf := []
  txlen := 0
  tStart := 0
  tToggle := 0
  tHold := 0
  offers := []
  frames := []
  issued := []
  trace := []

end Sys2Proof.Machine
end

