-- ==== Sys2Proof/Machine/Operands.lean ====
section
/-! DEFINITION. Operand forms: modular time (00_scope.md R10), the ack-flag value of a selector (R56, R73) and the
fields of a frame by offset (20_memory.md R48, 30_encoding.md R55). -/

namespace Sys2Proof.Machine

open Sys2Proof

/-- `elapsed(now, then) = (now - then) mod 2^TIMER_WIDTH` (R10). -/
def elapsed (c : Config) (now since : Nat) : Nat :=
  (now + (2 ^ c.timerWidth - since % 2 ^ c.timerWidth)) % 2 ^ c.timerWidth

/-- The ack-flag byte of an ack selector: `ACKV` or `NOACKV` (R56, R73). -/
def ackByte (c : Config) : AckSel → Byte
  | .ack => c.ackv
  | .noack => c.noackv

/-- Byte `i` of a frame, `f[i]` (R9); 0 past its end, where no rule reads. -/
def frameByte (f : List Byte) (i : Nat) : Byte := f.getD i 0

/-- The payload length `L = f[3]` (R57). -/
def frameLen (f : List Byte) : Nat := (frameByte f 3).toNat

/-- The payload `f[4 .. 4+L)` (R48). -/
def framePayload (f : List Byte) : List Byte := (f.drop 4).take (frameLen f)

/-- The CRC field read back, `f[4+L] | (f[5+L] << 8)` (R44, R58). -/
def frameCrc (f : List Byte) : Word :=
  wordOfBytes (frameByte f (4 + frameLen f)) (frameByte f (5 + frameLen f))

end Sys2Proof.Machine
end

