-- ==== Sys2Proof/Machine/Ops.lean ====
section
/-! DEFINITION. The named operations over the two storage spaces (20_memory.md), the response that ends a request
and the busy hold (00_scope.md R11), and the wake output pin (10_state.md R29). -/

namespace Sys2Proof.Machine

open Sys2Proof

/-! ### The storage spaces RX and TX (R40 to R45) -/

/-- Every byte 0: the reset contents (R39). -/
def Memory.empty : Memory := []

/-- One byte of a space; an address that is not listed reads as 0. -/
def Memory.read : Memory → Nat → Byte
  | [], _ => 0
  | (k, v) :: rest, a => if a = k then v else Memory.read rest a

/-- Set the byte at `a`, keeping the canonical form. -/
def Memory.write : Memory → Nat → Byte → Memory
  | [], a, v => if v = 0 then [] else [(a, v)]
  | (k, u) :: rest, a, v =>
    if a < k then (if v = 0 then (k, u) :: rest else (a, v) :: (k, u) :: rest)
    else if a = k then (if v = 0 then rest else (k, v) :: rest)
    else (k, u) :: Memory.write rest a v

/-- Set the bytes from address `a` on, in order. -/
def Memory.writeList (m : Memory) (a : Nat) : List Byte → Memory
  | [] => m
  | v :: vs => Memory.writeList (Memory.write m a v) (a + 1) vs

/-- The bytes at `a .. a + n - 1`, in order. -/
def Memory.readList (m : Memory) (a : Nat) : Nat → List Byte
  | 0 => []
  | n + 1 => Memory.read m a :: Memory.readList m (a + 1) n

/-- The canonical form: addresses strictly rising, no entry equal to what an unlisted address reads as. -/
abbrev Memory.wf (m : Memory) : Prop := m.Pairwise (fun c d => c.1 < d.1) ∧ ∀ c ∈ m, c.2 ≠ 0

/-- `MemWrite(RX, i, 1, v)` (R11, R41). -/
def rxWrite (i : Nat) (v : Byte) (s : State) : Except Fault State :=
  if i < s.cfg.frameBufSize then .ok { s with rxbuf := Memory.write s.rxbuf i v } else .error .rxAddress

/-- `RXBUF[0 .. n)`: `MemRead(RX, i, 1)` for `i < n` (R41, R88). -/
def rxRead (n : Nat) (s : State) : Except Fault (List Byte) :=
  if n ≤ s.cfg.frameBufSize then .ok (Memory.readList s.rxbuf 0 n) else .error .rxAddress

/-- `MemWrite(TX, i, 1, bs[i])` for every `i < len(bs)`, then `TXLEN <- len(bs)` (R42, R74, R96, R97). -/
def txLoad (bs : List Byte) (s : State) : Except Fault State :=
  if bs.length ≤ s.cfg.frameBufSize then
    .ok { s with txbuf := Memory.writeList s.txbuf 0 bs, txlen := bs.length }
  else .error .txAddress

/-- The valid bytes of `TXBUF`: `MemRead(TX, i, 1)` for `i < TXLEN` (R42, R93). -/
def txRead (s : State) : Except Fault (List Byte) :=
  if s.txlen ≤ s.cfg.frameBufSize then .ok (Memory.readList s.txbuf 0 s.txlen) else .error .txAddress

/-! ### Ending a request (R11, R94, R119, R123). The block has no traps: every failure is a response. -/

/-- Append one observation (R16). -/
def observe (o : Obs) (s : State) : State := { s with trace := s.trace ++ [o] }

/-- `respond(code, data)` of R11, which is also what `raise` stands for: the one way an outcome is taken. It stores
nothing (R20, R119) and transfers control nowhere (R123). -/
def respond (code : Code) (data : Data) (s : State) : State := observe (.response code data) s

/-- `hold` of R11: the request is not accepted and changes nothing (R94). -/
def hold (s : State) : State := observe .held s

/-- The outcome of a step from a result of the operations above. -/
def outcomeOf : Except Fault State → Host.Outcome State Fault Refusal
  | .ok s => .next s
  | .error e => .fault e

/-- The response to an illegal request word: nothing is performed and no state changes (R63). -/
def illegal (s : State) : State := respond .illegalRequest .none s

/-! ### The pin and the frame-out port -/

/-- Drive `WAKE_OUT` to a level (R29); a change of the level is observed with its time (R16). -/
def setWakeOut (now : Nat) (level : Bool) (s : State) : State :=
  if s.wakeOut = level then s else observe (.wakeOut now level) { s with wakeOut := level }

/-- `emit_tx(s)` of R11: bytes appended to the TX byte output (R35). -/
def emitTx (bs : List Byte) (s : State) : State := observe (.tx bs) s

/-- `emit_frame(s)` of R11: a frame delivered on the frame-out port (R36), where the dispatcher finds it. -/
def emitFrame (f : List Byte) (s : State) : State :=
  observe (.frameOut f) { s with frames := s.frames ++ [f] }

/-- A call on a downstream collaborator (R103). -/
def emitCall (c : Call) (s : State) : State := observe (.call c) s

end Sys2Proof.Machine
end

