-- ==== Sys2Proof/Machine/Crc.lean ====
section
/-! DEFINITION. The CRC Engine (40_crc.md): bit step, byte step, span function, and the CRC request. -/

namespace Sys2Proof.Machine

open Sys2Proof

/-- The bit step (R67). -/
def crcBit (c : Config) (v : Word) : Word :=
  if v.getLsbD 0 then (v >>> 1) ^^^ c.crcPoly else v >>> 1

/-- `n` bit steps. -/
def crcBits (c : Config) : Nat → Word → Word
  | 0, v => v
  | n + 1, v => crcBits c n (crcBit c v)

/-- The byte step (R68). -/
def crcByte (c : Config) (v : Word) (b : Byte) : Word := crcBits c 8 (v ^^^ b.zeroExtend 16)

/-- The fold of the byte step over a byte list, from any CRC value (R69, R71). -/
def crcFold (c : Config) (v : Word) (bs : List Byte) : Word := bs.foldl (crcByte c) v

/-- The span function (R69). -/
def crc16 (c : Config) (bs : List Byte) : Word := crcFold c c.crcSeed bs

/-- CRC (R72). -/
def execCrc (bs : List Byte) (s : State) : Host.Outcome State Fault Refusal :=
  .next (respond .ok (.crc (crc16 s.cfg bs)) s)

end Sys2Proof.Machine
end

