-- ==== Sys2Proof/Machine/Codec.lean ====
section
/-! DEFINITION. The Packet Codec (41_codec.md): build, validate, and the BUILD and VALIDATE requests. -/

namespace Sys2Proof.Machine

open Sys2Proof

/-- The frame up to and including its payload, offsets `0 .. 3+L` (R73). -/
def frameHead (c : Config) (a : AckSel) (p : List Byte) : List Byte :=
  [c.header1, c.header2, ackByte c a, BitVec.ofNat 8 p.length] ++ p

/-- The build function (R73). -/
def build (c : Config) (a : AckSel) (p : List Byte) : List Byte :=
  let f := frameHead c a p
  let v := crc16 c f
  f ++ [loByte v, hiByte v, c.terminator]

/-- The validate function (R75). `Code.ok` stands for its `Valid`, as in the response of R76. -/
def validate (c : Config) (b : List Byte) : Code :=
  if b.length < 4 ∨ c.frameBufSize < b.length ∨ b.length < 7 + frameLen b then .malformed
  else if frameByte b 0 ≠ c.header1 ∨ frameByte b 1 ≠ c.header2 then .headerMismatch
  else if crc16 c (b.take (4 + frameLen b)) ≠ frameCrc b then .crcMismatch
  else if frameByte b (6 + frameLen b) ≠ c.terminator then .terminatorMismatch
  else .ok

/-- BUILD for either ack selector (R74). -/
def buildRequest (a : AckSel) (p : List Byte) (s : State) : Host.Outcome State Fault Refusal :=
  if s.wst = .waking then .next (hold s)
  else if s.cfg.maxPayload < p.length then .next (respond .payloadTooLong .none s)
  else
    let f := build s.cfg a p
    outcomeOf ((txLoad f s).map (respond .ok (.frame f)))

/-- BUILD.ACK (R74). -/
def execBuildAck (p : List Byte) (s : State) : Host.Outcome State Fault Refusal := buildRequest .ack p s

/-- BUILD.NOACK (R74). -/
def execBuildNoack (p : List Byte) (s : State) : Host.Outcome State Fault Refusal := buildRequest .noack p s

/-- VALIDATE (R76). -/
def execValidate (b : List Byte) (s : State) : Host.Outcome State Fault Refusal :=
  .next (respond (validate s.cfg b) .none s)

end Sys2Proof.Machine
end

