-- ==== Sys2Proof/Machine/Framer.lean ====
section
/-! DEFINITION. The Receive Framer (42_rx_framer.md): the record, clear and restart steps, the byte rules of the five
states, completion, the inactivity reset, and the POLL request. -/

namespace Sys2Proof.Machine

open Sys2Proof

/-- The record step (R79). -/
def record (b : Byte) (s : State) : Except Fault State :=
  (rxWrite s.rxidx b s).map fun t => { t with rxidx := t.rxidx + 1 }

/-- The clear step (R80). -/
def clear (s : State) : State := { s with rxbuf := Memory.empty, rxidx := 0, rxexp := 0, fst := .idle }

/-- The restart step (R81). -/
def restart (b : Byte) (s : State) : Except Fault State :=
  (record b (clear s)).map fun t => { t with fst := .sawHeader1 }

/-- Completion (R88): validate, deliver a valid frame, clear. The list is the RX event it raises (R91). -/
def complete (s : State) : Except Fault (State × List Code) :=
  (rxRead s.rxexp s).map fun f =>
    match validate s.cfg f with
    | .ok => (clear (emitFrame f s), [.frameValid])
    | r => (clear s, [r])

/-- A result with no RX event. -/
def noEvent (r : Except Fault State) : Except Fault (State × List Code) := r.map fun t => (t, [])

/-- The rule of `FST = Idle` (R82). -/
def consumeIdle (b : Byte) (s : State) : Except Fault State :=
  if b = s.cfg.header1 then restart b s else .ok s

/-- The rule of `FST = SawHeader1` (R83). -/
def consumeSawHeader1 (b : Byte) (s : State) : Except Fault State :=
  if b = s.cfg.header2 then (record b s).map fun t => { t with fst := .sawHeader2 }
  else if b = s.cfg.header1 then restart b s
  else .ok (clear s)

/-- The rule of `FST = SawHeader2` (R84). -/
def consumeSawHeader2 (b : Byte) (s : State) : Except Fault State :=
  if b = s.cfg.ackv ∨ b = s.cfg.noackv then (record b s).map fun t => { t with fst := .sawLength }
  else if b = s.cfg.header1 then restart b s
  else .ok s

/-- The rule of `FST = SawLength` (R85). -/
def consumeSawLength (b : Byte) (s : State) : Except Fault State :=
  if b.toNat ≤ s.cfg.maxPayload then
    (record b s).map fun t => { t with rxexp := 2 + 1 + 1 + b.toNat + 2 + 1, fst := .accumulating }
  else if b = s.cfg.header1 then restart b s
  else .ok (clear s)

/-- The rules of `FST = Accumulating`: below the expected length the byte is recorded and may complete the frame
(R86); at it, the discarding condition holds and only `HEADER1` is taken (R87). -/
def consumeAccumulating (b : Byte) (s : State) : Except Fault (State × List Code) :=
  if s.rxidx < s.rxexp then
    match record b s with
    | .error e => .error e
    | .ok t => if t.rxidx = t.rxexp ∧ b = t.cfg.terminator then complete t else .ok (t, [])
  else noEvent (if b = s.cfg.header1 then restart b s else .ok s)

/-- `consume(b)`: exactly one of the rules R82 to R87, chosen by `FST` and, in Accumulating, by `RXIDX`. -/
def consume (b : Byte) (s : State) : Except Fault (State × List Code) :=
  match s.fst with
  | .idle => noEvent (consumeIdle b s)
  | .sawHeader1 => noEvent (consumeSawHeader1 b s)
  | .sawHeader2 => noEvent (consumeSawHeader2 b s)
  | .sawLength => noEvent (consumeSawLength b s)
  | .accumulating => consumeAccumulating b s

/-- When the inactivity reset is due (R89). -/
abbrev inactive (now : Nat) (s : State) : Prop :=
  s.fst ≠ .idle ∧ s.cfg.inactMs < elapsed s.cfg now s.tLastRx

/-- The inactivity check of one POLL and the event it raises (R89). -/
def inactivityCheck (now : Nat) (s : State) : State × List Code :=
  if inactive now s then (clear s, [.inactivityReset]) else (s, [])

/-- The byte of a POLL, if it carries one: `T_LASTRX <- NOW`, then the byte's rule (R90). -/
def pollByte (now : Nat) (x : Option Byte) (s : State) : Except Fault (State × List Code) :=
  match x with
  | none => .ok (s, [])
  | some b => consume b { s with tLastRx := now }

/-- POLL (R90). -/
def execPoll (now : Nat) (x : Option Byte) (s : State) : Host.Outcome State Fault Refusal :=
  let (t, first) := inactivityCheck now s
  outcomeOf ((pollByte now x t).map fun (u, second) => respond .ok (.events (first ++ second)) u)

end Sys2Proof.Machine
end

