-- ==== Sys2Proof/Machine/Wake.lean ====
section
/-! DEFINITION. The Link Wake Controller and the transmit path (43_wake.md): transmit, wake entry, and the SEND,
SEND_RAW and TICK requests. -/

namespace Sys2Proof.Machine

open Sys2Proof

/-- The transmit step (R93). -/
def transmit (s : State) : Except Fault State := (txRead s).map fun bs => emitTx bs s

/-- The wake entry taken when the module is not ready (R95). -/
def enterWake (now : Nat) (s : State) : State :=
  { setWakeOut now true s with wst := .waking, tStart := now, tToggle := now, tHold := now }

/-- `wake_start` (R95). -/
def wakeStart (now : Nat) (st : Bool) (s : State) : Except Fault State :=
  if st = s.cfg.readyLevel then (transmit s).map (respond .ok (.event .sent))
  else .ok (respond .pending .none (enterWake now s))

/-- SEND for either ack selector (R96). -/
def sendRequest (a : AckSel) (p : List Byte) (now : Nat) (st : Bool) (s : State) :
    Host.Outcome State Fault Refusal :=
  if s.wst = .waking then .next (hold s)
  else if s.cfg.maxPayload < p.length then .next (respond .payloadTooLong .none s)
  else outcomeOf ((txLoad (build s.cfg a p) s).bind (wakeStart now st))

/-- SEND.ACK (R96). -/
def execSendAck (p : List Byte) (now : Nat) (st : Bool) (s : State) : Host.Outcome State Fault Refusal :=
  sendRequest .ack p now st s

/-- SEND.NOACK (R96). -/
def execSendNoack (p : List Byte) (now : Nat) (st : Bool) (s : State) : Host.Outcome State Fault Refusal :=
  sendRequest .noack p now st s

/-- SEND_RAW (R97). -/
def execSendRaw (bs : List Byte) (now : Nat) (st : Bool) (s : State) : Host.Outcome State Fault Refusal :=
  if s.wst = .waking then .next (hold s)
  else if s.cfg.frameBufSize < bs.length then .next (respond .payloadTooLong .none s)
  else outcomeOf ((txLoad bs s).bind (wakeStart now st))

/-- The end of a wake: `WAKE_OUT <- 1` and `WST <- WIdle` (R98, R99, R100). -/
def endWake (now : Nat) (s : State) : State := { setWakeOut now true s with wst := .idle }

/-- Success (R98, R99): the pin high, the frame transmitted, the wake over. -/
def wakeSuccess (now : Nat) (s : State) : Except Fault State :=
  (transmit (setWakeOut now true s)).map fun t => respond .ok (.event .sent) { t with wst := .idle }

/-- The toggle, where one is due (R98, R101). -/
def toggleStep (now : Nat) (s : State) : State :=
  if s.cfg.toggleMs ≤ elapsed s.cfg now s.tToggle then
    { setWakeOut now (!s.wakeOut) s with tToggle := now, tHold := now }
  else s

/-- The sample of a TICK: a level that is not ready breaks the hold (R98). -/
def sampleHold (now : Nat) (st : Bool) (s : State) : State :=
  if st = s.cfg.readyLevel then s else { s with tHold := now }

/-- One iteration of the wake loop while `WST = WWaking` (R98): success, then timeout, then toggle. -/
def wakeIteration (now : Nat) (st : Bool) (s : State) : Except Fault State :=
  let t := sampleHold now st s
  if st = t.cfg.readyLevel ∧ t.cfg.debounceMs ≤ elapsed t.cfg now t.tHold then wakeSuccess now t
  else if t.cfg.wakeTimeoutMs ≤ elapsed t.cfg now t.tStart then
    .ok (respond .ok (.event .wakeTimeout) (endWake now t))
  else .ok (respond .ok .none (toggleStep now t))

/-- TICK (R98). -/
def execTick (now : Nat) (st : Bool) (s : State) : Host.Outcome State Fault Refusal :=
  match s.wst with
  | .idle => .next (respond .ok .none s)
  | .waking => outcomeOf (wakeIteration now st s)

end Sys2Proof.Machine
end

