-- ==== Sys2Proof/Machine/Protocol.lean ====
section
/-! DEFINITION. The attached collaborator contract (45_protocol.md): the report encoders, each one SEND, and the
dispatcher's action for each inbound command byte. -/

namespace Sys2Proof.Machine

open Sys2Proof

/-! ### Report encoders (R110 to R117), by R66 each the SEND it expands to -/

/-- CMD.SET_PAIRING (R116). -/
def execCmdSetPairing (host timeout : Byte) (now : Nat) (st : Bool) (s : State) :
    Host.Outcome State Fault Refusal :=
  sendRequest .noack [0x14, host, timeout] now st s

/-- CMD.OPEN_ADV (R117). -/
def execCmdOpenAdv (host timeout : Byte) (now : Nat) (st : Bool) (s : State) :
    Host.Outcome State Fault Refusal :=
  sendRequest .noack [0x15, host, timeout] now st s

/-- CMD.CLOSE_ADV (R117). -/
def execCmdCloseAdv (now : Nat) (st : Bool) (s : State) : Host.Outcome State Fault Refusal :=
  sendRequest .noack [0x16, 0x00] now st s

/-- CMD.KEYBOARD (R110). -/
def execCmdKeyboard (r : List Byte) (now : Nat) (st : Bool) (s : State) : Host.Outcome State Fault Refusal :=
  sendRequest .ack ([0x21] ++ r) now st s

/-- CMD.NKRO (R111); its fixed bitmap width, `NKRO_BITMAP_BYTES`, is checked where the call is decoded. -/
def execCmdNkro (mods : Byte) (bitmap : List Byte) (now : Nat) (st : Bool) (s : State) :
    Host.Outcome State Fault Refusal :=
  sendRequest .ack ([0x22, mods] ++ bitmap) now st s

/-- CMD.CONSUMER (R112). -/
def execCmdConsumer (u : Word) (now : Nat) (st : Bool) (s : State) : Host.Outcome State Fault Refusal :=
  sendRequest .ack [0x23, loByte u, hiByte u] now st s

/-- CMD.SYSTEM (R113). -/
def execCmdSystem (u : Word) (now : Nat) (st : Bool) (s : State) : Host.Outcome State Fault Refusal :=
  sendRequest .ack [0x24, loByte u, hiByte u] now st s

/-- CMD.MOUSE (R114): X and Y sign-extended to 16 bits, low byte first. -/
def execCmdMouse (buttons x y v h : Byte) (now : Nat) (st : Bool) (s : State) :
    Host.Outcome State Fault Refusal :=
  sendRequest .ack
    [0x25, buttons, loByte (sext16 x), hiByte (sext16 x), loByte (sext16 y), hiByte (sext16 y), v, h] now st s

/-- CMD.RAW_HID.OUT (R115). -/
def execCmdRawHidOut (d : List Byte) (now : Nat) (st : Bool) (s : State) : Host.Outcome State Fault Refusal :=
  sendRequest .ack ([0x27] ++ d) now st s

/-! ### The dispatcher (R104 to R109) -/

/-- CMD.LED (R106): the dispatcher issues one SEND of `LED_RESPONSE`, to be accepted after this POLL's step. -/
def execCmdLed (_rest : List Byte) (s : State) : Host.Outcome State Fault Refusal :=
  .next { s with issued := s.issued ++ [s.cfg.ledResponse] }

/-- CMD.RAW_HID.IN (R107): the bytes after the command byte and their count, to the raw-HID sink. -/
def execCmdRawHidIn (d : List Byte) (s : State) : Host.Outcome State Fault Refusal :=
  .next (emitCall (.rawHidReceive d d.length) s)

/-- Healthy link, sub-status 0 (R108): the retry call comes before the interval call. -/
def linkHealthy (s : State) : State :=
  emitCall (.setReportIntervalMs s.cfg.defaultIntervalMs) (emitCall (.setRetryCount 0) s)

/-- Degraded link, sub-status 1 (R108). -/
def linkDegraded (s : State) : State :=
  emitCall (.setReportIntervalMs (s.cfg.defaultIntervalMs + s.cfg.degradedDeltaMs)) (emitCall (.setRetryCount 0) s)

/-- Poor link, sub-status 2 (R108): the interval is left alone. -/
def linkPoor (s : State) : State := emitCall (.setRetryCount s.cfg.poorRetry) s

/-- `link_status(f)` (R108): by the sub-status byte, if the payload has one; other values are ignored. -/
def linkStatus (rest : List Byte) (s : State) : State :=
  match rest with
  | [] => s
  | sub :: _ =>
    if sub = 0 then linkHealthy s
    else if sub = 1 then linkDegraded s
    else if sub = 2 then linkPoor s
    else s

/-- CMD.LINK_STATUS_A1 (R108). -/
def execCmdLinkStatusA1 (rest : List Byte) (s : State) : Host.Outcome State Fault Refusal := .next (linkStatus rest s)

/-- CMD.LINK_STATUS_A2 (R108). -/
def execCmdLinkStatusA2 (rest : List Byte) (s : State) : Host.Outcome State Fault Refusal := .next (linkStatus rest s)

/-- CMD.LINK_STATUS_A3 (R108). -/
def execCmdLinkStatusA3 (rest : List Byte) (s : State) : Host.Outcome State Fault Refusal := .next (linkStatus rest s)

/-- CMD.LINK_STATUS_A4 (R108). -/
def execCmdLinkStatusA4 (rest : List Byte) (s : State) : Host.Outcome State Fault Refusal := .next (linkStatus rest s)

/-- CMD.LINK_STATUS_A5 (R108). -/
def execCmdLinkStatusA5 (rest : List Byte) (s : State) : Host.Outcome State Fault Refusal := .next (linkStatus rest s)

/-- CMD.LINK_STATUS_A7 (R108). -/
def execCmdLinkStatusA7 (rest : List Byte) (s : State) : Host.Outcome State Fault Refusal := .next (linkStatus rest s)

end Sys2Proof.Machine
end

