-- ==== Sys2Proof/Machine/Reset.lean ====
section
/-! DEFINITION. The RESET request (70_reset_and_hazards.md R131). -/

namespace Sys2Proof.Machine

open Sys2Proof

/-- The reset values of R39 for every element but `WAKE_OUT`. -/
def resetState (s : State) : State :=
  { s with
    fst := .idle, rxbuf := Memory.empty, rxidx := 0, rxexp := 0, tLastRx := 0,
    wst := .idle, txbuf := Memory.empty, txlen := 0, tStart := 0, tToggle := 0, tHold := 0 }

/-- RESET (R131): a wake it ends is reported as `Aborted`. -/
def execReset (now : Nat) (s : State) : Host.Outcome State Fault Refusal :=
  let data := if s.wst = .waking then .event .aborted else .none
  .next (respond .ok data (setWakeOut now true (resetState s)))

end Sys2Proof.Machine
end

