-- ==== Sys2Proof/Machine/Dispatch.lean ====
section
/-! DEFINITION. exec: one arm per constructor of `Instr`, one direct call of its meaning each. -/

namespace Sys2Proof.Machine

open Sys2Proof

def exec (i : Instr) (s : State) : Host.Outcome State Fault Refusal :=
  match i with
  | .crc bs => Sys2Proof.Machine.execCrc bs s
  | .buildAck p => Sys2Proof.Machine.execBuildAck p s
  | .buildNoack p => Sys2Proof.Machine.execBuildNoack p s
  | .validate b => Sys2Proof.Machine.execValidate b s
  | .sendAck p now st => Sys2Proof.Machine.execSendAck p now st s
  | .sendNoack p now st => Sys2Proof.Machine.execSendNoack p now st s
  | .sendRaw bs now st => Sys2Proof.Machine.execSendRaw bs now st s
  | .poll now x => Sys2Proof.Machine.execPoll now x s
  | .tick now st => Sys2Proof.Machine.execTick now st s
  | .reset now => Sys2Proof.Machine.execReset now s
  | .cmdSetPairing host timeout now st => Sys2Proof.Machine.execCmdSetPairing host timeout now st s
  | .cmdOpenAdv host timeout now st => Sys2Proof.Machine.execCmdOpenAdv host timeout now st s
  | .cmdCloseAdv now st => Sys2Proof.Machine.execCmdCloseAdv now st s
  | .cmdKeyboard r now st => Sys2Proof.Machine.execCmdKeyboard r now st s
  | .cmdNkro mods bitmap now st => Sys2Proof.Machine.execCmdNkro mods bitmap now st s
  | .cmdConsumer u now st => Sys2Proof.Machine.execCmdConsumer u now st s
  | .cmdSystem u now st => Sys2Proof.Machine.execCmdSystem u now st s
  | .cmdMouse buttons x y v h now st => Sys2Proof.Machine.execCmdMouse buttons x y v h now st s
  | .cmdLed rest => Sys2Proof.Machine.execCmdLed rest s
  | .cmdRawHidOut d now st => Sys2Proof.Machine.execCmdRawHidOut d now st s
  | .cmdRawHidIn d => Sys2Proof.Machine.execCmdRawHidIn d s
  | .cmdLinkStatusA1 rest => Sys2Proof.Machine.execCmdLinkStatusA1 rest s
  | .cmdLinkStatusA2 rest => Sys2Proof.Machine.execCmdLinkStatusA2 rest s
  | .cmdLinkStatusA3 rest => Sys2Proof.Machine.execCmdLinkStatusA3 rest s
  | .cmdLinkStatusA4 rest => Sys2Proof.Machine.execCmdLinkStatusA4 rest s
  | .cmdLinkStatusA5 rest => Sys2Proof.Machine.execCmdLinkStatusA5 rest s
  | .cmdLinkStatusA7 rest => Sys2Proof.Machine.execCmdLinkStatusA7 rest s

end Sys2Proof.Machine
end

