-- ==== Sys2Proof/Machine/Fetch.lean ====
section
/-! DEFINITION. What the next offer asks of the block: the instruction it decodes to, or an effect without one
(an illegal word, R63; an ignored frame, R109; nothing to take). -/

namespace Sys2Proof.Machine

open Sys2Proof

/-- What the next offer amounts to. -/
inductive Fetched where
  /-- execute the instruction in the given state -/
  | run (i : Instr) (s : State)
  /-- no instruction is executed; the given state is the next one -/
  | done (s : State)
  /-- the offer is refused -/
  | refuse (r : Refusal)
  deriving DecidableEq, Repr

/-- A request word that decodes runs; an illegal one gets the response of R63. -/
def fetchRequest (w : Word) (d : PortData) (s : State) : Fetched :=
  match decode s.cfg (.request w d) with
  | .ok i => .run i s
  | .error _ => .done (illegal s)

/-- An encoder call that decodes runs; what no encoder makes is refused. -/
def fetchReport (payload : List Byte) (now : Nat) (st : Bool) (s : State) : Fetched :=
  match decode s.cfg (.report payload now st) with
  | .ok i => .run i s
  | .error _ => .refuse .notAnEncoderCall

/-- The dispatcher takes the oldest delivered frame (R105); a frame without a command byte or with a command byte
outside R104 is ignored (R109), and with no frame delivered nothing happens. -/
def fetchDispatch (s : State) : Fetched :=
  match s.frames with
  | [] => .done s
  | f :: fs =>
    match decode s.cfg (.notify (framePayload f)) with
    | .ok i => .run i { s with frames := fs }
    | .error _ => .done { s with frames := fs }

/-- The SEND of an ack selector and payload. -/
def sendInstr (c : Config) (p : AckSel × List Byte) (now : Nat) (st : Bool) : Instr :=
  match p.1 with
  | .ack => .sendAck p.2 (c.sample now) st
  | .noack => .sendNoack p.2 (c.sample now) st

/-- The dispatcher offers its oldest issued SEND; while a wake runs it is held and the dispatcher keeps it (R94,
R106). -/
def fetchIssued (now : Nat) (st : Bool) (s : State) : Fetched :=
  match s.issued with
  | [] => .done s
  | p :: ps => .run (sendInstr s.cfg p now st) (if s.wst = .waking then s else { s with issued := ps })

/-- The next offer, taken off the schedule; with nothing offered the block stays as it is (R17). -/
def fetch (s : State) : Fetched :=
  match s.offers with
  | [] => .done s
  | .request w d :: rest => fetchRequest w d { s with offers := rest }
  | .report payload now st :: rest => fetchReport payload now st { s with offers := rest }
  | .dispatch :: rest => fetchDispatch { s with offers := rest }
  | .issued now st :: rest => fetchIssued now st { s with offers := rest }

/-- Place an encoded instruction so that the very next fetch takes it: a request or an encoder call at the head of
the schedule; a notification as the payload of a frame at the head of the dispatcher's queue, with the dispatcher's
turn at the head of the schedule. -/
def place (e : Encoded) (s : State) : State :=
  match e with
  | .request w d => { s with offers := .request w d :: s.offers }
  | .report payload now st => { s with offers := .report payload now st :: s.offers }
  | .notify payload => { s with offers := .dispatch :: s.offers, frames := build s.cfg .ack payload :: s.frames }

end Sys2Proof.Machine
end

