-- ==== Sys2Proof/Machine/Step.lean ====
section
/-! DEFINITION. The step of the block: take the next offer, decode it and run it (R7, R46). -/

namespace Sys2Proof.Machine

open Sys2Proof

/-- One step. -/
def step (s : State) : Host.Outcome State Fault Refusal :=
  match fetch s with
  | .run i t => exec i t
  | .done t => .next t
  | .refuse r => .refused r

/-- The state with a table row's bits placed where the next step fetches (operands zero). -/
def State.withFetchWord (s : State) (nbits w : Nat) : State := place (tableForm nbits w) s

end Sys2Proof.Machine
end

