-- ==== Sys2Proof/Machine/Flags.lean ====
section
/-! DEFINITION. The block has no flags (R20): an outcome is a result code. This file gives the numbers of the codes
(R119) and of the two sequencer states (R22, R28). -/

namespace Sys2Proof.Machine

open Sys2Proof

/-- The 8-bit value of a result code or event (R119). -/
def Code.toByte : Code → Byte
  | .ok => 0x00
  | .headerMismatch => 0x01
  | .crcMismatch => 0x02
  | .terminatorMismatch => 0x03
  | .wakeTimeout => 0x04
  | .payloadTooLong => 0x05
  | .malformed => 0x06
  | .illegalRequest => 0x07
  | .aborted => 0x08
  | .pending => 0x09
  | .inactivityReset => 0x0A
  | .sent => 0x0B
  | .frameValid => 0x0C

/-- The code of an 8-bit value, none for the reserved values 0x0D to 0xFF (R119). -/
def Code.ofByte (b : Byte) : Option Code :=
  match b.toNat with
  | 0x00 => some .ok
  | 0x01 => some .headerMismatch
  | 0x02 => some .crcMismatch
  | 0x03 => some .terminatorMismatch
  | 0x04 => some .wakeTimeout
  | 0x05 => some .payloadTooLong
  | 0x06 => some .malformed
  | 0x07 => some .illegalRequest
  | 0x08 => some .aborted
  | 0x09 => some .pending
  | 0x0A => some .inactivityReset
  | 0x0B => some .sent
  | 0x0C => some .frameValid
  | _ => none

/-- The 3-bit value of `FST` (R22). -/
def Fst.toBits : Fst → BitVec 3
  | .idle => 0
  | .sawHeader1 => 1
  | .sawHeader2 => 2
  | .sawLength => 3
  | .accumulating => 4

/-- The 1-bit value of `WST` (R28). -/
def Wst.toBits : Wst → BitVec 1
  | .idle => 0
  | .waking => 1

end Sys2Proof.Machine
end

