-- ==== Sys2Proof/Safety.lean ====
section
/-! DEFINITION. The terms that claims use: what a run shows (00_scope.md R16), the invariants of the state (10_state.md
R27, R29, R30, R36), the two agents' shares of the state (20_memory.md R50), and the outcomes of the transmit path. -/

namespace Sys2Proof.Machine

open Sys2Proof

/-! ### What a run shows (R16) -/

/-- The TX byte output of an observation (R35). -/
def txOutput (tr : List Obs) : List Byte :=
  tr.flatMap fun o => match o with | .tx bs => bs | _ => []

/-- The frames delivered on the frame-out port (R36). -/
def framesOut (tr : List Obs) : List (List Byte) :=
  tr.filterMap fun o => match o with | .frameOut f => some f | _ => none

/-- The changes of the level of `WAKE_OUT`, each with its time (R16). -/
def wakeEdges (tr : List Obs) : List (Nat × Bool) :=
  tr.filterMap fun o => match o with | .wakeOut now level => some (now, level) | _ => none

/-- The calls on the downstream collaborators (R103). -/
def callsMade (tr : List Obs) : List Call :=
  tr.filterMap fun o => match o with | .call c => some c | _ => none

/-- The responses, in order (R119). -/
def responses (tr : List Obs) : List (Code × Data) :=
  tr.filterMap fun o => match o with | .response c d => some (c, d) | _ => none

/-! ### Runs of instructions -/

/-- Run instructions in order, stopping at the first fault or refusal. -/
def execAll : List Instr → State → Host.Outcome State Fault Refusal
  | [], s => .next s
  | i :: rest, s =>
    match exec i s with
    | .next t => execAll rest t
    | .fault e => .fault e
    | .refused r => .refused r

/-- One POLL per byte, each with its own time (R90). -/
def feed (bytes : List (Nat × Byte)) : List Instr := bytes.map fun p => .poll p.1 (some p.2)

/-- No POLL of the list, the first excepted, comes more than `INACT_MS` after the one before it (R89, R92). -/
def Prompt (c : Config) : List (Nat × Byte) → Prop
  | [] => True
  | [_] => True
  | p :: q :: rest => elapsed c q.1 p.1 ≤ c.inactMs ∧ Prompt c (q :: rest)

/-- One TICK at each of `t0 + 1 .. t0 + n`, the status pin at `level j` at `t0 + j` (R102). -/
def ticks (t0 n : Nat) (level : Nat → Bool) : List Instr :=
  (List.range n).map fun j => .tick (t0 + (j + 1)) (level (j + 1))

/-! ### Invariants -/

/-- The framer invariant of R27, bullet by bullet. -/
structure FramerInv (s : State) : Prop where
  clean : ∀ i, s.rxidx ≤ i → Memory.read s.rxbuf i = 0
  idle : s.fst = .idle → s.rxidx = 0 ∧ s.rxexp = 0
  header : s.fst = .sawHeader1 ∨ s.fst = .sawHeader2 ∨ s.fst = .sawLength → s.rxexp = 0
  sawHeader1 : s.fst = .sawHeader1 → s.rxidx = 1 ∧ Memory.read s.rxbuf 0 = s.cfg.header1
  sawHeader2 : s.fst = .sawHeader2 →
    s.rxidx = 2 ∧ Memory.read s.rxbuf 0 = s.cfg.header1 ∧ Memory.read s.rxbuf 1 = s.cfg.header2
  sawLength : s.fst = .sawLength →
    s.rxidx = 3 ∧ (Memory.read s.rxbuf 2 = s.cfg.ackv ∨ Memory.read s.rxbuf 2 = s.cfg.noackv)
  accumulating : s.fst = .accumulating →
    4 ≤ s.rxidx ∧ s.rxidx ≤ s.rxexp ∧ s.rxexp = 7 + (Memory.read s.rxbuf 3).toNat ∧
      (Memory.read s.rxbuf 3).toNat ≤ s.cfg.maxPayload ∧ s.rxexp ≤ s.cfg.frameBufSize

/-- The header bytes a frame in progress was started with stay in place (the reason why completion finds no header
mismatch, R88). -/
def HeadersKept (s : State) : Prop :=
  (s.fst ≠ .idle → Memory.read s.rxbuf 0 = s.cfg.header1) ∧
    (s.fst = .sawLength ∨ s.fst = .accumulating → Memory.read s.rxbuf 1 = s.cfg.header2)

/-- The wake pin is high whenever no wake runs (R29). -/
def WakePinInv (s : State) : Prop := s.wst = .idle → s.wakeOut = true

/-- Both spaces are in canonical form and hold no address outside `0 .. FRAME_BUF_SIZE - 1` (R41, R42). -/
def MemoryInv (s : State) : Prop :=
  Memory.wf s.rxbuf ∧ Memory.wf s.txbuf ∧
    (∀ c ∈ s.rxbuf, c.1 < s.cfg.frameBufSize) ∧ (∀ c ∈ s.txbuf, c.1 < s.cfg.frameBufSize)

/-- `TXLEN` counts bytes of the buffer (R30). -/
def TxLenInv (s : State) : Prop := s.txlen ≤ s.cfg.frameBufSize

/-- The four time stamps fit `TIMER_WIDTH` bits (R26, R31). -/
def TimeInv (s : State) : Prop :=
  s.tLastRx < 2 ^ s.cfg.timerWidth ∧ s.tStart < 2 ^ s.cfg.timerWidth ∧
    s.tToggle < 2 ^ s.cfg.timerWidth ∧ s.tHold < 2 ^ s.cfg.timerWidth

/-- A frame as the frame-out port delivers it: valid, and of the length its length byte says (R36). -/
def DeliverableFrame (c : Config) (f : List Byte) : Prop := f.length = 7 + frameLen f ∧ validate c f = .ok

/-- Every frame waiting at the dispatcher is one the port may deliver (R36). -/
def FramesInv (s : State) : Prop := ∀ f ∈ s.frames, DeliverableFrame s.cfg f

/-- The invariant of the block. -/
structure Inv (s : State) : Prop where
  cfg : s.cfg.Wf
  framer : FramerInv s
  headers : HeadersKept s
  wakePin : WakePinInv s
  memory : MemoryInv s
  txLen : TxLenInv s
  time : TimeInv s
  frames : FramesInv s

/-! ### Shares of the state (R22 to R31, R50) -/

/-- The RX agent's elements are the same (R22 to R26). -/
def SameRx (s t : State) : Prop :=
  t.fst = s.fst ∧ t.rxbuf = s.rxbuf ∧ t.rxidx = s.rxidx ∧ t.rxexp = s.rxexp ∧ t.tLastRx = s.tLastRx

/-- The TX agent's elements are the same (R28 to R31). -/
def SameTx (s t : State) : Prop :=
  t.wst = s.wst ∧ t.wakeOut = s.wakeOut ∧ t.txbuf = s.txbuf ∧ t.txlen = s.txlen ∧
    t.tStart = s.tStart ∧ t.tToggle = s.tToggle ∧ t.tHold = s.tHold

/-- The bytes `bs` stand in space TX from address 0 on and every other byte is as it was. -/
def Loaded (bs : List Byte) (s t : State) : Prop :=
  ∀ a, Memory.read t.txbuf a = if a < bs.length then bs.getD a 0 else Memory.read s.txbuf a

/-- The outcome of a send whose module is ready (R95): the bytes are in `TXBUF`, they left on the TX byte output,
the response is OK with `Sent`, and nothing else changed. -/
def SentNow (bs : List Byte) (s : State) (o : Host.Outcome State Fault Refusal) : Prop :=
  ∃ t, o = .next t ∧ Loaded bs s t ∧
    t = { s with
      txbuf := t.txbuf, txlen := bs.length, trace := s.trace ++ [.tx bs, .response .ok (.event .sent)] }

/-- The outcome of a send whose module is not ready (R95), from a state whose pin is high: the bytes are in `TXBUF`,
the wake runs from `now` with the pin high, the response is `Pending`, and nothing else changed. -/
def WakeEntered (bs : List Byte) (now : Nat) (s : State) (o : Host.Outcome State Fault Refusal) : Prop :=
  ∃ t, o = .next t ∧ Loaded bs s t ∧
    t = { s with
      txbuf := t.txbuf, txlen := bs.length, wst := .waking, wakeOut := true,
      tStart := now, tToggle := now, tHold := now, trace := s.trace ++ [.response .pending .none] }

/-- The outcome of a send of the bytes `bs` from an idle wake state (R95): sent at once where the module is ready,
a wake entered where it is not. -/
def Sends (bs : List Byte) (now : Nat) (st : Bool) (s : State) (o : Host.Outcome State Fault Refusal) : Prop :=
  (st = s.cfg.readyLevel → SentNow bs s o) ∧ (st ≠ s.cfg.readyLevel → WakeEntered bs now s o)

/-- The outcome of a BUILD that makes the frame `f` (R74): it is in `TXBUF` and in the response, and nothing else
changed. -/
def Built (f : List Byte) (s : State) (o : Host.Outcome State Fault Refusal) : Prop :=
  ∃ t, o = .next t ∧ Loaded f s t ∧
    t = { s with txbuf := t.txbuf, txlen := f.length, trace := s.trace ++ [.response .ok (.frame f)] }

/-- The outcome of a POLL that delivers no frame: the RX elements as given, `RXBUF` byte by byte, the response OK with
the events `evs`, and nothing else changed (R90). -/
def Polled (fst : Fst) (rxidx rxexp tLastRx : Nat) (evs : List Code) (byteAt : Nat → Byte) (s : State)
    (o : Host.Outcome State Fault Refusal) : Prop :=
  ∃ t, o = .next t ∧ (∀ a, Memory.read t.rxbuf a = byteAt a) ∧
    t = { s with
      fst := fst, rxbuf := t.rxbuf, rxidx := rxidx, rxexp := rxexp, tLastRx := tLastRx,
      trace := s.trace ++ [.response .ok (.events evs)] }

/-- The level change that driving `WAKE_OUT` high makes, if it makes one (R16, R29). -/
def riseEdge (now : Nat) (s : State) : List Obs := if s.wakeOut then [] else [.wakeOut now true]

end Sys2Proof.Machine
end

