-- ==== Sys2Proof/Certificates/Slice0/Obligations.lean ====
section
/-! DEFINITION. The statements about the block, for the provers. Each docstring names the rules of spec/ it rests on. -/

open Sys2Proof Sys2Proof.Machine

/-! ### Encodings -/

/-- Decode and encode agree (R60 to R62, R110 to R117): a well-formed instruction, encoded and decoded, is itself, with
every operand at every value. -/
def Obligations.DecodeOfEncodeIsTheInstruction : Prop :=
  ∀ (c : Config) (i : Instr), wellFormed c i = true → decode c (encode i) = .ok i

/-- What decodes is what the encoder writes (R61, R62; R110 to R117; R104). For a request: the word, and each operand
that R62 lists for it, as presented, so two forms share an instruction only if they differ in operands the request does
not have. For an encoder call and a notification: every byte of the payload. That a time is reduced modulo
`2^TIMER_WIDTH` is the model's choice (log entry 5). -/
def Obligations.DecodedFormsAreTheirEncodings : Prop :=
  (∀ (c : Config) (w : Word) (d : PortData) (i : Instr),
      decode c (.request w d) = .ok i →
        ∃ e, encode i = .request w e ∧
          (reqOp w ∈ [0x01, 0x02, 0x03, 0x04, 0x05] → e.bytes = d.bytes) ∧
          (reqOp w ∈ [0x04, 0x05, 0x06, 0x07, 0x08] → e.now = d.now % 2 ^ c.timerWidth) ∧
          (reqOp w ∈ [0x04, 0x05, 0x07] → e.status = d.status) ∧ (reqOp w = 0x06 → e.rxByte = d.rxByte)) ∧
  (∀ (c : Config) (p : List Byte) (now : Nat) (st : Bool) (i : Instr),
      decode c (.report p now st) = .ok i → encode i = .report p (c.sample now) st) ∧
  (∀ (c : Config) (p : List Byte) (i : Instr), decode c (.notify p) = .ok i → encode i = .notify p)

/-- R64: the request words that decode are the ten the rule accepts, and no others. -/
def Obligations.RequestDecodeAcceptsExactlyTheListedWords : Prop :=
  ∀ (c : Config) (w : Word) (d : PortData),
    (∃ i, decode c (.request w d) = .ok i) ↔
      (reqRes w = 0 ∧
        (reqOp w ∈ [0x02, 0x04] ∨ (reqOp w ∈ [0x01, 0x03, 0x05, 0x06, 0x07, 0x08] ∧ reqA w = false)))

/-- R63: a reserved selector, a nonzero RES or an A on a request that has none makes the word illegal; the block then
changes no state and responds `IllegalRequest`. Every other word decodes. -/
def Obligations.IllegalRequestWordsChangeNothing : Prop :=
  ∀ (s : State) (w : Word) (d : PortData) (rest : List Offer),
    ((reqOp w = 0 ∨ 9 ≤ reqOp w ∨ reqRes w ≠ 0 ∨ (reqA w = true ∧ reqOp w ≠ 2 ∧ reqOp w ≠ 4)) →
      step { s with offers := .request w d :: rest } =
        .next { s with offers := rest, trace := s.trace ++ [.response .illegalRequest .none] }) ∧
    (¬ (reqOp w = 0 ∨ 9 ≤ reqOp w ∨ reqRes w ≠ 0 ∨ (reqA w = true ∧ reqOp w ≠ 2 ∧ reqOp w ≠ 4)) →
      ∃ i, decode s.cfg (.request w d) = .ok i)

/-- A few words and command bytes of the opcode table, and three values outside it (R60, R62, R63). The zero operands
are the model's choice (log entry 17). -/
def Obligations.WrittenOutWordsDecode : Prop :=
  decodeTableWord 16 0x0001 = some (.crc []) ∧ decodeTableWord 16 0x0102 = some (.buildNoack []) ∧
  decodeTableWord 16 0x0104 = some (.sendNoack [] 0 false) ∧ decodeTableWord 16 0x0006 = some (.poll 0 none) ∧
  decodeTableWord 8 0x16 = some (.cmdCloseAdv 0 false) ∧ decodeTableWord 8 0x23 = some (.cmdConsumer 0 0 false) ∧
  decodeTableWord 8 0xA7 = some (.cmdLinkStatusA7 [0]) ∧ decodeTableWord 16 0x0101 = none ∧
  decodeTableWord 16 0x0009 = none ∧ decodeTableWord 8 0xA6 = none

/-! ### The step -/

/-- A request or an encoder call that decodes is executed, after it is taken off the schedule (R37, R66). The schedule
is the model's form of what the environment offers (log entry 3). -/
def Obligations.StepRunsTheDecodedRequest : Prop :=
  (∀ (s : State) (w : Word) (d : PortData) (rest : List Offer) (i : Instr),
      decode s.cfg (.request w d) = .ok i →
        step { s with offers := .request w d :: rest } = exec i { s with offers := rest }) ∧
  (∀ (s : State) (p : List Byte) (now : Nat) (st : Bool) (rest : List Offer) (i : Instr),
      decode s.cfg (.report p now st) = .ok i →
        step { s with offers := .report p now st :: rest } = exec i { s with offers := rest })

/-- The dispatcher takes the oldest delivered frame and executes the command its payload decodes to (R105). The queue of
delivered frames is the model's (log entry 14). -/
def Obligations.StepRunsTheDispatchedCommand : Prop :=
  ∀ (s : State) (f : List Byte) (fs : List (List Byte)) (rest : List Offer) (i : Instr),
    s.frames = f :: fs → decode s.cfg (.notify (framePayload f)) = .ok i →
      step { s with offers := .dispatch :: rest } = exec i { s with offers := rest, frames := fs }

/-- A table word or command byte placed where the step fetches is the instruction the next step executes, in the state it was placed
in (reference configuration; the model's own interface, log entry 17). -/
def Obligations.PlacedWordIsTheNextInstruction : Prop :=
  ∀ (s : State) (nbits w : Nat) (i : Instr), s.cfg = Config.reference → decodeTableWord nbits w = some i →
    step (s.withFetchWord nbits w) = exec i s

/-- R104, R109: the dispatcher ignores a frame without a command byte or with a command byte outside the eight it
reacts to, and makes no call. -/
def Obligations.UnknownCommandsAreIgnored : Prop :=
  ∀ (s : State) (f : List Byte) (fs : List (List Byte)) (rest : List Offer),
    s.frames = f :: fs →
    (∀ cmd ∈ (framePayload f).head?, cmd ∉ ([0x26, 0x27, 0xA1, 0xA2, 0xA3, 0xA4, 0xA5, 0xA7] : List Byte)) →
      step { s with offers := .dispatch :: rest } = .next { s with offers := rest, frames := fs }

/-! ### CRC Engine -/

/-- R67: the bit step, and the rule's two examples; bit 15 of the result is what the rule marks as derived. -/
def Obligations.CrcBitStep : Prop :=
  (∀ (c : Config) (v : Word),
      crcBit c v = (if v.getLsbD 0 then (v >>> 1) ^^^ c.crcPoly else v >>> 1) ∧
      (c.crcPoly.getLsbD 15 = true → (crcBit c v).getLsbD 15 = v.getLsbD 0)) ∧
  crcBit Config.reference 0xFFFE = 0x7FFF ∧ crcBit Config.reference 0x7FFF = 0x9FFE

/-- R72: CRC responds OK with the CRC of its operand, of any length, and writes no state. -/
def Obligations.CrcRequestResult : Prop :=
  (∀ (s : State) (bs : List Byte),
      exec (.crc bs) s = .next { s with trace := s.trace ++ [.response .ok (.crc (crc16 s.cfg bs))] }) ∧
  crc16 Config.reference [] = 0xFFFF ∧
  crc16 Config.reference [0x01, 0x03, 0x00, 0x00, 0x00, 0x01] = 0x0A84

/-- R71: chaining, residue, and the single-byte change. The last rests on bit 15 of the polynomial, which is 1 (R67). -/
def Obligations.CrcLaws : Prop :=
  (∀ (c : Config) (l r : List Byte), crc16 c (l ++ r) = crcFold c (crc16 c l) r) ∧
  (∀ (c : Config) (l : List Byte), crc16 c (l ++ [loByte (crc16 c l), hiByte (crc16 c l)]) = 0) ∧
  (∀ (c : Config) (l r : List Byte) (a b : Byte), c.crcPoly.getLsbD 15 = true → a ≠ b →
      crc16 c (l ++ a :: r) ≠ crc16 c (l ++ b :: r))

/-- The byte step is linear over exclusive or, so no table is needed to know it (from R67 and R68). -/
def Obligations.CrcByteIsLinear : Prop :=
  ∀ (c : Config) (u v : Word) (a b : Byte),
    crcByte c (u ^^^ v) (a ^^^ b) = crcByte c u a ^^^ crcByte c v b

/-! ### Packet Codec -/

/-- R73: the built frame byte by byte, its length, and its fields read back by offset. -/
def Obligations.BuiltFrameLayout : Prop :=
  ∀ (c : Config) (a : AckSel) (p : List Byte), c.Wf → p.length ≤ c.maxPayload →
    let head := [c.header1, c.header2, (match a with | .ack => c.ackv | .noack => c.noackv),
      BitVec.ofNat 8 p.length] ++ p
    build c a p = head ++ [loByte (crc16 c head), hiByte (crc16 c head), c.terminator] ∧
    (build c a p).length = 7 + p.length ∧ frameLen (build c a p) = p.length ∧
    framePayload (build c a p) = p ∧ frameCrc (build c a p) = crc16 c ((build c a p).take (4 + p.length)) ∧
    frameByte (build c a p) (6 + p.length) = c.terminator

/-- R74: BUILD is held while a wake runs, refuses a payload above `MAX_PAYLOAD` and writes nothing, and otherwise puts
the frame in `TXBUF` and in its response. That a hold is observed as `held` is the model's choice (log entry 6). -/
def Obligations.BuildRequestResult : Prop :=
  ∀ (s : State) (a : AckSel) (p : List Byte) (i : Instr), s.cfg.Wf → Memory.wf s.txbuf →
    ((a = .ack ∧ i = .buildAck p) ∨ (a = .noack ∧ i = .buildNoack p)) →
    (if s.wst = .waking then exec i s = .next { s with trace := s.trace ++ [.held] }
      else if s.cfg.maxPayload < p.length then
        exec i s = .next { s with trace := s.trace ++ [.response .payloadTooLong .none] }
      else Built (build s.cfg a p) s (exec i s))

/-- R75 and R76: VALIDATE writes no state and responds with the first check that fails, in the rule's order. -/
def Obligations.ValidateRequestResult : Prop :=
  ∀ (s : State) (b : List Byte), ∃ code,
    exec (.validate b) s = .next { s with trace := s.trace ++ [.response code .none] } ∧
    code =
      (if b.length < 4 ∨ s.cfg.frameBufSize < b.length ∨ b.length < 7 + (b.getD 3 0).toNat then .malformed
      else if b.getD 0 0 ≠ s.cfg.header1 ∨ b.getD 1 0 ≠ s.cfg.header2 then .headerMismatch
      else if crc16 s.cfg (b.take (4 + (b.getD 3 0).toNat)) ≠
          (b.getD (4 + (b.getD 3 0).toNat) 0).zeroExtend 16 |||
            ((b.getD (5 + (b.getD 3 0).toNat) 0).zeroExtend 16 <<< 8) then .crcMismatch
      else if b.getD (6 + (b.getD 3 0).toNat) 0 ≠ s.cfg.terminator then .terminatorMismatch
      else .ok)

/-- R77: every built frame validates. -/
def Obligations.BuiltFramesValidate : Prop :=
  ∀ (c : Config) (a : AckSel) (p : List Byte), c.Wf → p.length ≤ c.maxPayload →
    validate c (build c a p) = .ok

/-- R78: what one changed byte of a built frame makes VALIDATE answer. The clause on the ack and payload bytes rests on
bit 15 of the polynomial, which is 1 (R67). -/
def Obligations.CorruptedFramesAreDetected : Prop :=
  ∀ (c : Config) (a : AckSel) (p : List Byte) (i : Nat) (v : Byte), c.Wf → p.length ≤ c.maxPayload →
    v ≠ frameByte (build c a p) i →
    ((i = 0 ∨ i = 1) → validate c ((build c a p).set i v) = .headerMismatch) ∧
    ((i = 4 + p.length ∨ i = 5 + p.length) → validate c ((build c a p).set i v) = .crcMismatch) ∧
    (i = 6 + p.length → validate c ((build c a p).set i v) = .terminatorMismatch) ∧
    (c.crcPoly.getLsbD 15 = true → (i = 2 ∨ (4 ≤ i ∧ i < 4 + p.length)) →
      validate c ((build c a p).set i v) = .crcMismatch) ∧
    (i = 3 → 7 + p.length < 7 + v.toNat → validate c ((build c a p).set i v) = .malformed)

/-! ### Receive Framer -/

/-- R82: a byte in Idle. -/
def Obligations.PollInIdle : Prop :=
  ∀ (s : State) (now : Nat) (b : Byte), Inv s → s.fst = .idle →
    (if b = s.cfg.header1 then
      Polled .sawHeader1 1 0 now [] (fun a => if a = 0 then b else 0) s (exec (.poll now (some b)) s)
    else Polled .idle 0 0 now [] (fun _ => 0) s (exec (.poll now (some b)) s))

/-- R83: a byte in SawHeader1, no inactivity reset being due. -/
def Obligations.PollInSawHeader1 : Prop :=
  ∀ (s : State) (now : Nat) (b : Byte), Inv s → s.fst = .sawHeader1 → ¬ inactive now s →
    (if b = s.cfg.header2 then
      Polled .sawHeader2 2 0 now [] (fun a => if a = 1 then b else Memory.read s.rxbuf a) s
        (exec (.poll now (some b)) s)
    else if b = s.cfg.header1 then
      Polled .sawHeader1 1 0 now [] (fun a => if a = 0 then b else 0) s (exec (.poll now (some b)) s)
    else Polled .idle 0 0 now [] (fun _ => 0) s (exec (.poll now (some b)) s))

/-- R84: a byte in SawHeader2, no inactivity reset being due. -/
def Obligations.PollInSawHeader2 : Prop :=
  ∀ (s : State) (now : Nat) (b : Byte), Inv s → s.fst = .sawHeader2 → ¬ inactive now s →
    (if b = s.cfg.ackv ∨ b = s.cfg.noackv then
      Polled .sawLength 3 0 now [] (fun a => if a = 2 then b else Memory.read s.rxbuf a) s
        (exec (.poll now (some b)) s)
    else if b = s.cfg.header1 then
      Polled .sawHeader1 1 0 now [] (fun a => if a = 0 then b else 0) s (exec (.poll now (some b)) s)
    else Polled .sawHeader2 2 0 now [] (fun a => Memory.read s.rxbuf a) s (exec (.poll now (some b)) s))

/-- R85: a byte in SawLength, no inactivity reset being due. -/
def Obligations.PollInSawLength : Prop :=
  ∀ (s : State) (now : Nat) (b : Byte), Inv s → s.fst = .sawLength → ¬ inactive now s →
    (if b.toNat ≤ s.cfg.maxPayload then
      Polled .accumulating 4 (7 + b.toNat) now [] (fun a => if a = 3 then b else Memory.read s.rxbuf a) s
        (exec (.poll now (some b)) s)
    else if b = s.cfg.header1 then
      Polled .sawHeader1 1 0 now [] (fun a => if a = 0 then b else 0) s (exec (.poll now (some b)) s)
    else Polled .idle 0 0 now [] (fun _ => 0) s (exec (.poll now (some b)) s))

/-- R86: a byte in Accumulating below the expected length, which does not complete the frame: it is recorded, whatever
its value. -/
def Obligations.PollInAccumulating : Prop :=
  ∀ (s : State) (now : Nat) (b : Byte), Inv s → s.fst = .accumulating → ¬ inactive now s →
    s.rxidx < s.rxexp → ¬ (s.rxidx + 1 = s.rxexp ∧ b = s.cfg.terminator) →
    Polled .accumulating (s.rxidx + 1) s.rxexp now []
      (fun a => if a = s.rxidx then b else Memory.read s.rxbuf a) s (exec (.poll now (some b)) s)

/-- R88: the terminator at the expected length completes the frame. A valid one is delivered, any other is dropped with
`CrcMismatch`, the only other outcome there; the framer is cleared in both cases. -/
def Obligations.PollCompletesTheFrame : Prop :=
  ∀ (s : State) (now : Nat) (b : Byte), Inv s → s.fst = .accumulating → ¬ inactive now s →
    s.rxidx + 1 = s.rxexp → b = s.cfg.terminator →
    let f := Memory.readList s.rxbuf 0 s.rxidx ++ [b]
    (validate s.cfg f = .ok ∧
      exec (.poll now (some b)) s =
        .next { s with
          fst := .idle, rxbuf := [], rxidx := 0, rxexp := 0, tLastRx := now, frames := s.frames ++ [f],
          trace := s.trace ++ [.frameOut f, .response .ok (.events [.frameValid])] }) ∨
    (validate s.cfg f = .crcMismatch ∧
      exec (.poll now (some b)) s =
        .next { s with
          fst := .idle, rxbuf := [], rxidx := 0, rxexp := 0, tLastRx := now,
          trace := s.trace ++ [.response .ok (.events [.crcMismatch])] })

/-- R87: a byte while discarding, no inactivity reset being due: only `HEADER1` is taken. -/
def Obligations.PollWhileDiscarding : Prop :=
  ∀ (s : State) (now : Nat) (b : Byte), Inv s → s.fst = .accumulating → ¬ inactive now s →
    s.rxidx = s.rxexp →
    (if b = s.cfg.header1 then
      Polled .sawHeader1 1 0 now [] (fun a => if a = 0 then b else 0) s (exec (.poll now (some b)) s)
    else Polled .accumulating s.rxidx s.rxexp now [] (fun a => Memory.read s.rxbuf a) s
      (exec (.poll now (some b)) s))

/-- R89: the inactivity reset, strict and before the byte, which is then handled from Idle; a POLL without a byte
does nothing else. -/
def Obligations.PollInactivityReset : Prop :=
  ∀ (s : State) (now : Nat), Inv s →
    (s.fst ≠ .idle ∧ s.cfg.inactMs < elapsed s.cfg now s.tLastRx →
      Polled .idle 0 0 s.tLastRx [.inactivityReset] (fun _ => 0) s (exec (.poll now none) s) ∧
      (∀ b, b = s.cfg.header1 →
        Polled .sawHeader1 1 0 now [.inactivityReset] (fun a => if a = 0 then b else 0) s
          (exec (.poll now (some b)) s)) ∧
      (∀ b, b ≠ s.cfg.header1 →
        Polled .idle 0 0 now [.inactivityReset] (fun _ => 0) s (exec (.poll now (some b)) s))) ∧
    (¬ (s.fst ≠ .idle ∧ s.cfg.inactMs < elapsed s.cfg now s.tLastRx) →
      exec (.poll now none) s = .next { s with trace := s.trace ++ [.response .ok (.events [])] })

/-- From R90 and R91: a POLL always answers OK, with at most two RX events, of which only `InactivityReset`,
`FrameValid` and `CrcMismatch` occur, and `FrameValid` comes with exactly one frame on the frame-out port. -/
def Obligations.PollAlwaysAnswersOk : Prop :=
  ∀ (s : State) (now : Nat) (x : Option Byte), Inv s →
    ∃ t evs pre, exec (.poll now x) s = .next t ∧ t.trace = s.trace ++ pre ++ [.response .ok (.events evs)] ∧
      evs.length ≤ 2 ∧ (∀ e ∈ evs, e ∈ [Code.inactivityReset, .frameValid, .crcMismatch]) ∧
      ((.frameValid ∉ evs ∧ pre = []) ∨ (.frameValid ∈ evs ∧ ∃ f, DeliverableFrame s.cfg f ∧ pre = [.frameOut f]))

/-- From R92: a built frame fed one byte per POLL, with no POLL without a byte in between, is delivered exactly once, at
its last byte, and leaves the framer in Idle with nothing else observed but the responses. -/
def Obligations.BuiltFrameIsDeliveredOnce : Prop :=
  ∀ (s : State) (a : AckSel) (p : List Byte) (times : List Nat), Inv s → s.fst = .idle →
    p.length ≤ s.cfg.maxPayload → times.length = 7 + p.length →
    Prompt s.cfg (times.zip (build s.cfg a p)) →
    ∃ t, execAll (feed (times.zip (build s.cfg a p))) s = .next t ∧ t.fst = .idle ∧ SameTx s t ∧
      t.frames = s.frames ++ [build s.cfg a p] ∧
      t.trace = s.trace ++ List.replicate (6 + p.length) (.response .ok (.events [])) ++
        [.frameOut (build s.cfg a p), .response .ok (.events [.frameValid])]

/-- From R92: bytes other than `HEADER1` leave an idle framer in Idle, with an empty buffer and nothing delivered. -/
def Obligations.GarbageLeavesTheFramerIdle : Prop :=
  ∀ (s : State) (bytes : List (Nat × Byte)), Inv s → s.fst = .idle → (∀ q ∈ bytes, q.2 ≠ s.cfg.header1) →
    ∃ t, execAll (feed bytes) s = .next t ∧
      t = { s with
        tLastRx := t.tLastRx,
        trace := s.trace ++ List.replicate bytes.length (.response .ok (.events [])) }

/-! ### Wake controller and transmit path -/

/-- R96 with R95: SEND is held while a wake runs, refuses a payload above `MAX_PAYLOAD`, and otherwise builds the frame
into `TXBUF` and sends it at once or enters the wake. That a hold is observed as `held` is the model's choice (log
entry 6). -/
def Obligations.SendRequestResult : Prop :=
  ∀ (s : State) (a : AckSel) (p : List Byte) (now : Nat) (st : Bool) (i : Instr), Inv s →
    ((a = .ack ∧ i = .sendAck p now st) ∨ (a = .noack ∧ i = .sendNoack p now st)) →
    (if s.wst = .waking then exec i s = .next { s with trace := s.trace ++ [.held] }
      else if s.cfg.maxPayload < p.length then
        exec i s = .next { s with trace := s.trace ++ [.response .payloadTooLong .none] }
      else Sends (build s.cfg a p) now st s (exec i s))

/-- R97 with R95: SEND_RAW, which sends its bytes as they are. That a hold is observed as `held` is the model's choice
(log entry 6). -/
def Obligations.SendRawRequestResult : Prop :=
  ∀ (s : State) (bs : List Byte) (now : Nat) (st : Bool), Inv s →
    (if s.wst = .waking then exec (.sendRaw bs now st) s = .next { s with trace := s.trace ++ [.held] }
      else if s.cfg.frameBufSize < bs.length then
        exec (.sendRaw bs now st) s = .next { s with trace := s.trace ++ [.response .payloadTooLong .none] }
      else Sends bs now st s (exec (.sendRaw bs now st) s))

/-- R98: TICK, with no wake running and in the order success, timeout, toggle while one runs. -/
def Obligations.TickResult : Prop :=
  ∀ (s : State) (now : Nat) (st : Bool), s.txlen ≤ s.cfg.frameBufSize →
    exec (.tick now st) s = .next
      (if s.wst = .idle then { s with trace := s.trace ++ [.response .ok .none] }
      else if st = s.cfg.readyLevel ∧ s.cfg.debounceMs ≤ elapsed s.cfg now s.tHold then
        { s with
          wst := .idle, wakeOut := true,
          trace := s.trace ++ riseEdge now s ++
            [.tx (Memory.readList s.txbuf 0 s.txlen), .response .ok (.event .sent)] }
      else if s.cfg.wakeTimeoutMs ≤ elapsed s.cfg now s.tStart then
        { s with
          wst := .idle, wakeOut := true, tHold := (if st = s.cfg.readyLevel then s.tHold else now),
          trace := s.trace ++ riseEdge now s ++ [.response .ok (.event .wakeTimeout)] }
      else if s.cfg.toggleMs ≤ elapsed s.cfg now s.tToggle then
        { s with
          wakeOut := !s.wakeOut, tToggle := now, tHold := now,
          trace := s.trace ++ [.wakeOut now (!s.wakeOut), .response .ok .none] }
      else
        { s with
          tHold := (if st = s.cfg.readyLevel then s.tHold else now),
          trace := s.trace ++ [.response .ok .none] })

/-- R94: while a wake runs BUILD, SEND and SEND_RAW are held and change nothing; CRC, VALIDATE, TICK and RESET are
answered. That a hold is observed as `held` is the model's choice (log entry 6). -/
def Obligations.BusyHold : Prop :=
  ∀ (s : State), s.wst = .waking → s.txlen ≤ s.cfg.frameBufSize →
    (∀ (p : List Byte) (now : Nat) (st : Bool) (i : Instr),
      i ∈ [Instr.buildAck p, .buildNoack p, .sendAck p now st, .sendNoack p now st, .sendRaw p now st] →
        exec i s = .next { s with trace := s.trace ++ [.held] }) ∧
    (∀ (p : List Byte) (now : Nat) (st : Bool) (i : Instr),
      i ∈ [Instr.crc p, .validate p, .tick now st, .reset now] →
        ∃ t code data, exec i s = .next t ∧ t.trace.getLast? = some (.response code data))

/-- From R28, R94, R135: while a wake runs, no instruction but TICK and RESET changes any element of the TX agent. -/
def Obligations.OnlyTickAndResetTouchARunningWake : Prop :=
  ∀ (s t : State) (i : Instr), s.wst = .waking → exec i s = .next t →
    (∀ now st, i ≠ .tick now st) → (∀ now, i ≠ .reset now) → SameTx s t

/-- From R102: with one TICK per millisecond and a module that is never ready, the wake ends at `t0 + 100` with
`WakeTimeout` and not before, the pin high after four toggles, and nothing transmitted. -/
def Obligations.NeverReadyTimesOutAtTheWindow : Prop :=
  ∀ (s : State) (t0 : Nat) (level : Nat → Bool),
    s.wst = .waking → s.tStart = t0 → s.tToggle = t0 → s.tHold = t0 → s.wakeOut = true →
    s.cfg.toggleMs = 20 → s.cfg.wakeTimeoutMs = 100 → 11 ≤ s.cfg.timerWidth →
    (∀ j, 1 ≤ j → j ≤ 100 → level j ≠ s.cfg.readyLevel) →
    (∀ n, n < 100 → ∃ u, execAll (ticks t0 n level) s = .next u ∧ u.wst = .waking ∧
      u.wakeOut = decide (n / 20 % 2 = 0)) ∧
    ∃ t, execAll (ticks t0 100 level) s = .next t ∧ t.wst = .idle ∧ t.wakeOut = true ∧
      txOutput t.trace = txOutput s.trace ∧
      wakeEdges t.trace =
        wakeEdges s.trace ++ [(t0 + 20, false), (t0 + 40, true), (t0 + 60, false), (t0 + 80, true)] ∧
      responses t.trace =
        responses s.trace ++ List.replicate 99 (.ok, .none) ++ [(.ok, .event .wakeTimeout)]

/-- From R102: with one TICK per millisecond and a module ready from `t0 + k` on, the send succeeds at `t0 + k + 4`,
or at `t0 + 20 j + 5` where the toggle at `t0 + 20 j` falls in the hold, and not before. -/
def Obligations.ReadyModuleIsSentToAfterTheHold : Prop :=
  ∀ (s : State) (t0 k n : Nat) (level : Nat → Bool),
    s.wst = .waking → s.tStart = t0 → s.tToggle = t0 → s.tHold = t0 → s.wakeOut = true →
    s.txlen ≤ s.cfg.frameBufSize →
    s.cfg.toggleMs = 20 → s.cfg.debounceMs = 5 → s.cfg.wakeTimeoutMs = 100 → 11 ≤ s.cfg.timerWidth →
    1 ≤ k → k ≤ 96 → (∀ j, 1 ≤ j → j ≤ 100 → (level j = s.cfg.readyLevel ↔ k ≤ j)) →
    ((∃ j, 1 ≤ j ∧ j ≤ 4 ∧ k ≤ 20 * j ∧ 20 * j < k + 4 ∧ n = 20 * j + 5) ∨
      ((∀ j, 1 ≤ j → j ≤ 4 → ¬ (k ≤ 20 * j ∧ 20 * j < k + 4)) ∧ n = k + 4)) →
    (∀ m, m < n → ∃ u, execAll (ticks t0 m level) s = .next u ∧ u.wst = .waking ∧
      txOutput u.trace = txOutput s.trace) ∧
    ∃ t, execAll (ticks t0 n level) s = .next t ∧ t.wst = .idle ∧ t.wakeOut = true ∧
      txOutput t.trace = txOutput s.trace ++ Memory.readList s.txbuf 0 s.txlen ∧
      t.trace.getLast? = some (.response .ok (.event .sent))

/-! ### Collaborators -/

/-- R110 to R117: each report encoder sends, with its ack selector, the payload its rule lays out; X and Y of the mouse
report are sign-extended to 16 bits, low byte first. `9 <= MAX_PAYLOAD` leaves room for the longest fixed payload; a
payload above the maximum is answered by R96's `PayloadTooLong`. -/
def Obligations.ReportEncodersSendTheirPayload : Prop :=
  ∀ (s : State) (now : Nat) (st : Bool), Inv s → s.wst = .idle → 9 ≤ s.cfg.maxPayload →
    (∀ r : List Byte, r.length = 8 →
      Sends (build s.cfg .ack ([0x21] ++ r)) now st s (exec (.cmdKeyboard r now st) s)) ∧
    (∀ (mods : Byte) (bitmap : List Byte), bitmap.length = s.cfg.nkroBitmapBytes →
      Sends (build s.cfg .ack ([0x22, mods] ++ bitmap)) now st s (exec (.cmdNkro mods bitmap now st) s)) ∧
    (∀ u : Word, Sends (build s.cfg .ack [0x23, u.extractLsb' 0 8, u.extractLsb' 8 8]) now st s
      (exec (.cmdConsumer u now st) s)) ∧
    (∀ u : Word, Sends (build s.cfg .ack [0x24, u.extractLsb' 0 8, u.extractLsb' 8 8]) now st s
      (exec (.cmdSystem u now st) s)) ∧
    (∀ buttons x y v h : Byte,
      Sends (build s.cfg .ack
          [0x25, buttons, x, (if x.msb then 0xFF else 0x00), y, (if y.msb then 0xFF else 0x00), v, h]) now st s
        (exec (.cmdMouse buttons x y v h now st) s)) ∧
    (∀ d : List Byte, d.length ≤ s.cfg.maxPayload - 1 →
      Sends (build s.cfg .ack ([0x27] ++ d)) now st s (exec (.cmdRawHidOut d now st) s)) ∧
    (∀ host timeout : Byte,
      Sends (build s.cfg .noack [0x14, host, timeout]) now st s (exec (.cmdSetPairing host timeout now st) s)) ∧
    (∀ host timeout : Byte,
      Sends (build s.cfg .noack [0x15, host, timeout]) now st s (exec (.cmdOpenAdv host timeout now st) s)) ∧
    Sends (build s.cfg .noack [0x16, 0x00]) now st s (exec (.cmdCloseAdv now st) s)

/-- From R94 and R96: an encoder call is held while a wake runs, which is observed as `held` (log entry 6). -/
def Obligations.ReportEncodersAreHeldDuringAWake : Prop :=
  ∀ (s : State) (now : Nat) (st : Bool) (host timeout mods buttons x y v h : Byte) (u : Word) (d : List Byte)
    (i : Instr), s.wst = .waking →
    i ∈ [Instr.cmdSetPairing host timeout now st, .cmdOpenAdv host timeout now st, .cmdCloseAdv now st,
      .cmdKeyboard d now st, .cmdNkro mods d now st, .cmdConsumer u now st, .cmdSystem u now st,
      .cmdMouse buttons x y v h now st, .cmdRawHidOut d now st] →
    exec i s = .next { s with trace := s.trace ++ [.held] }

/-- R106: the LED notification makes the dispatcher issue one SEND of `LED_RESPONSE`; the lock-state byte is not used.
An issued SEND is held, and kept, while a wake runs; otherwise it is executed and issued no more. The queue of issued
SENDs is the model's (log entry 15). -/
def Obligations.LedNotificationIssuesOneSend : Prop :=
  (∀ (s : State) (rest : List Byte),
      exec (.cmdLed rest) s = .next { s with issued := s.issued ++ [s.cfg.ledResponse] }) ∧
  (∀ (s : State) (a : AckSel) (p : List Byte) (ps : List (AckSel × List Byte)) (now : Nat) (st : Bool)
      (rest : List Offer), s.issued = (a, p) :: ps →
      (s.wst = .waking →
        step { s with offers := .issued now st :: rest } =
          .next { s with offers := rest, trace := s.trace ++ [.held] }) ∧
      (s.wst = .idle →
        step { s with offers := .issued now st :: rest } =
          exec (match a with
              | .ack => .sendAck p (now % 2 ^ s.cfg.timerWidth) st
              | .noack => .sendNoack p (now % 2 ^ s.cfg.timerWidth) st)
            { s with offers := rest, issued := ps }))

/-- R107: of a delivered raw-HID frame `f`, the bytes `f[5 .. 4+L)` and the length `L - 1` go to the raw-HID sink. -/
def Obligations.RawHidIsForwarded : Prop :=
  (∀ (s : State) (d : List Byte),
      exec (.cmdRawHidIn d) s = .next { s with trace := s.trace ++ [.call (.rawHidReceive d d.length)] }) ∧
  (∀ (s : State) (f : List Byte) (fs : List (List Byte)) (rest : List Offer),
      s.frames = f :: fs → f.length = 7 + frameLen f → 1 ≤ frameLen f → frameByte f 4 = 0x27 →
      step { s with offers := .dispatch :: rest } =
        .next { s with
          offers := rest, frames := fs,
          trace := s.trace ++ [.call (.rawHidReceive ((f.drop 5).take (frameLen f - 1)) (frameLen f - 1))] })

/-- R108, at the instructions: the six link-status codes do the same, by their sub-status byte. -/
def Obligations.LinkStatusCalls : Prop :=
  ∀ (s : State) (sub : Byte) (rest : List Byte),
    (∀ i ∈ [Instr.cmdLinkStatusA1 [], .cmdLinkStatusA2 [], .cmdLinkStatusA3 [], .cmdLinkStatusA4 [],
        .cmdLinkStatusA5 [], .cmdLinkStatusA7 []], exec i s = .next s) ∧
    (∀ i ∈ [Instr.cmdLinkStatusA1 (sub :: rest), .cmdLinkStatusA2 (sub :: rest), .cmdLinkStatusA3 (sub :: rest),
        .cmdLinkStatusA4 (sub :: rest), .cmdLinkStatusA5 (sub :: rest), .cmdLinkStatusA7 (sub :: rest)],
      exec i s = .next
        (match sub.toNat with
        | 0 => { s with
            trace := s.trace ++
              [.call (.setRetryCount 0), .call (.setReportIntervalMs s.cfg.defaultIntervalMs)] }
        | 1 => { s with
            trace := s.trace ++
              [.call (.setRetryCount 0),
                .call (.setReportIntervalMs (s.cfg.defaultIntervalMs + s.cfg.degradedDeltaMs))] }
        | 2 => { s with trace := s.trace ++ [.call (.setRetryCount s.cfg.poorRetry)] }
        | _ => s))

/-- R108: a delivered link-status frame `f` makes the calls of its sub-status byte `f[5]`, the retry call first, and none
where it has no such byte or another value. -/
def Obligations.LinkStatusFrames : Prop :=
  ∀ (s : State) (f : List Byte) (fs : List (List Byte)) (rest : List Offer),
    s.frames = f :: fs → f.length = 7 + frameLen f → 1 ≤ frameLen f →
    frameByte f 4 ∈ ([0xA1, 0xA2, 0xA3, 0xA4, 0xA5, 0xA7] : List Byte) →
    step { s with offers := .dispatch :: rest } =
      .next { s with
        offers := rest, frames := fs,
        trace := s.trace ++
          (if frameLen f < 2 then []
          else match (frameByte f 5).toNat with
            | 0 => [.call (.setRetryCount 0), .call (.setReportIntervalMs s.cfg.defaultIntervalMs)]
            | 1 => [.call (.setRetryCount 0),
                .call (.setReportIntervalMs (s.cfg.defaultIntervalMs + s.cfg.degradedDeltaMs))]
            | 2 => [.call (.setRetryCount s.cfg.poorRetry)]
            | _ => []) }

/-- From R118: a delivered frame with command 0xA3 and sub-status 2 makes exactly one call, on the retry count. -/
def Obligations.PoorLinkFrameSetsOnlyTheRetryCount : Prop :=
  ∀ (s : State) (a : AckSel) (more : List Byte) (fs : List (List Byte)) (rest : List Offer), s.cfg.Wf →
    more.length + 2 ≤ s.cfg.maxPayload → s.frames = build s.cfg a (0xA3 :: 0x02 :: more) :: fs →
    step { s with offers := .dispatch :: rest } =
      .next { s with
        offers := rest, frames := fs, trace := s.trace ++ [.call (.setRetryCount s.cfg.poorRetry)] }

/-! ### Reset -/

/-- R131: RESET writes every element its reset value and reports an aborted wake; the configuration is unchanged. -/
def Obligations.ResetRequestResult : Prop :=
  ∀ (s : State) (now : Nat),
    exec (.reset now) s = .next
      { s with
        fst := .idle, rxbuf := [], rxidx := 0, rxexp := 0, tLastRx := 0,
        wst := .idle, wakeOut := true, txbuf := [], txlen := 0, tStart := 0, tToggle := 0, tHold := 0,
        trace := s.trace ++ riseEdge now s ++
          [.response .ok (if s.wst = .waking then .event .aborted else .none)] }

/-- R39 and R132: the values at power-on, every byte of both buffers, and that RESET there changes nothing. That the
configuration at power-on is the reference one is the model's choice (log entry 1). -/
def Obligations.PowerOnState : Prop :=
  State.reset.fst.toBits = 0 ∧ (∀ a, Memory.read State.reset.rxbuf a = 0) ∧ State.reset.rxidx = 0 ∧
  State.reset.rxexp = 0 ∧ State.reset.tLastRx = 0 ∧ State.reset.wst.toBits = 0 ∧ State.reset.wakeOut = true ∧
  (∀ a, Memory.read State.reset.txbuf a = 0) ∧ State.reset.txlen = 0 ∧ State.reset.tStart = 0 ∧
  State.reset.tToggle = 0 ∧ State.reset.tHold = 0 ∧ State.reset.cfg = Config.reference ∧
  (∀ now, exec (.reset now) State.reset = .next { State.reset with trace := [.response .ok .none] })

/-! ### Invariants and whole-machine rules -/

/-- The invariant (R8, R27, R29, R30, R36, R41, R42) holds at reset, whose configuration is the reference one (log
entry 1). -/
def Obligations.InvAtReset : Prop := Inv State.reset

/-- Every step keeps the invariant: the framer invariant of R27, the pin high while no wake runs (R29), the canonical form and
bounds of both buffers, `TXLEN` in range, time stamps of `TIMER_WIDTH` bits, and only deliverable frames at the
dispatcher (R36). -/
def Obligations.InvKeptByEveryStep : Prop :=
  ∀ s t : State, Inv s → step s = .next t → Inv t

/-- From a state that meets the invariant no step faults: no access leaves the buffers (R79, R41, R42). -/
def Obligations.NoStepFaults : Prop :=
  ∀ s : State, Inv s → ∀ e, step s ≠ .fault e

/-- R21: no step writes a configuration register. -/
def Obligations.ConfigurationIsNeverWritten : Prop :=
  ∀ s t : State, step s = .next t → t.cfg = s.cfg

/-- From R50: POLL changes nothing of the TX agent, and no instruction but POLL and RESET changes anything of the RX
agent. -/
def Obligations.AgentsShareNoState : Prop :=
  (∀ (s t : State) (now : Nat) (x : Option Byte), exec (.poll now x) s = .next t → SameTx s t) ∧
  (∀ (s t : State) (i : Instr), exec i s = .next t → (∀ now x, i ≠ .poll now x) → (∀ now, i ≠ .reset now) →
    SameRx s t)

/-- From R50 and D22: a POLL and any instruction but POLL and RESET may be performed in either order. The state after
both is the same but for the trace, and each observes the same in either order: responses with their data, holds, and
every output. -/
def Obligations.AgentsCommute : Prop :=
  ∀ (s t u : State) (now : Nat) (x : Option Byte) (i : Instr),
    (∀ now' x', i ≠ .poll now' x') → (∀ now', i ≠ .reset now') →
    exec (.poll now x) s = .next t → exec i t = .next u →
    ∃ t' u' polled done, exec i s = .next t' ∧ exec (.poll now x) t' = .next u' ∧
      t.trace = s.trace ++ polled ∧ u.trace = s.trace ++ polled ++ done ∧
      t'.trace = s.trace ++ done ∧ u' = { u with trace := s.trace ++ done ++ polled }

/-- From R16 and R47: what has been observed is never withdrawn. -/
def Obligations.ObservationOnlyGrows : Prop :=
  ∀ s t : State, step s = .next t → ∃ new, t.trace = s.trace ++ new

/-- From R35 and R93: the only bytes a step puts on the TX byte output are the valid bytes of `TXBUF`, in order. -/
def Obligations.OnlyTheTransmitBufferIsTransmitted : Prop :=
  ∀ s t : State, step s = .next t →
    txOutput t.trace = txOutput s.trace ∨
      txOutput t.trace = txOutput s.trace ++ Memory.readList t.txbuf 0 t.txlen

/-- R36: a frame is delivered only by a POLL that carries a byte, at most one a step, of the length its length byte
says, and VALIDATE finds it valid. -/
def Obligations.OnlyValidFramesAreDelivered : Prop :=
  ∀ s t : State, Inv s → step s = .next t → framesOut t.trace ≠ framesOut s.trace →
    (∃ w d rest b, s.offers = .request w d :: rest ∧ reqOp w = 0x06 ∧ d.rxByte = some b) ∧
    ∃ f, framesOut t.trace = framesOut s.trace ++ [f] ∧ f.length = 7 + (f.getD 3 0).toNat ∧
      validate s.cfg f = .ok

/-- From R123: a request that ends in a failure code has written no state and observed nothing but its response. -/
def Obligations.FailuresWriteNothing : Prop :=
  ∀ (s t : State) (i : Instr) (code : Code) (data : Data), exec i s = .next t →
    responses t.trace = responses s.trace ++ [(code, data)] → code ≠ .ok → code ≠ .pending →
    t = { s with trace := s.trace ++ [.response code data] }

/-- From R29: after every step from a state that meets the invariant, the pin is high if no wake runs, which is its
idle level where `WAKE_IDLE_LEVEL` is 1; a step that ends a wake leaves it high (R99, R100, R131). -/
def Obligations.WakePinIsHighWhenNoWakeRuns : Prop :=
  ∀ s t : State, Inv s → step s = .next t → t.wst = .idle →
    t.wakeOut = true ∧ (s.cfg.wakeIdleLevel = true → t.wakeOut = t.cfg.wakeIdleLevel)

/-- From R10: elapsed time is the difference modulo `2^TIMER_WIDTH`, across a wrap of the counter. -/
def Obligations.ElapsedTimeIsModular : Prop :=
  ∀ (c : Config) (now since : Nat),
    ((elapsed c now since : Nat) : Int) = ((now : Int) - (since : Int)) % (2 ^ c.timerWidth : Int)

/-- R119: the codes have the rule's numbers 0x00 to 0x0C, and 0x0D to 0xFF belong to no code. -/
def Obligations.ResultCodeNumbers : Prop :=
  (∀ c : Code, Code.ofByte c.toByte = some c) ∧ (∀ b : Byte, (∃ c : Code, c.toByte = b) ↔ b.toNat ≤ 0x0C) ∧
  [Code.ok, .headerMismatch, .crcMismatch, .terminatorMismatch, .wakeTimeout, .payloadTooLong, .malformed,
    .illegalRequest, .aborted, .pending, .inactivityReset, .sent, .frameValid].map Code.toByte =
    [0x00, 0x01, 0x02, 0x03, 0x04, 0x05, 0x06, 0x07, 0x08, 0x09, 0x0A, 0x0B, 0x0C]

/-- R111: the NKRO bitmap has the fixed width `NKRO_BITMAP_BYTES`. A call with that width is executed and its built frame
has `L = 2 + NKRO_BITMAP_BYTES`, at most `MAX_PAYLOAD`; a call with another width is no call of the encoder, and the model
refuses it (log entry 10). -/
def Obligations.NkroCallsHaveTheFixedWidth : Prop :=
  ∀ (s : State) (mods : Byte) (bitmap : List Byte) (now : Nat) (st : Bool) (rest : List Offer), s.cfg.Wf →
    (bitmap.length = s.cfg.nkroBitmapBytes →
      step { s with offers := .report (0x22 :: mods :: bitmap) now st :: rest } =
        exec (.cmdNkro mods bitmap (now % 2 ^ s.cfg.timerWidth) st) { s with offers := rest } ∧
      frameLen (build s.cfg .ack (0x22 :: mods :: bitmap)) = 2 + s.cfg.nkroBitmapBytes ∧
      2 + s.cfg.nkroBitmapBytes ≤ s.cfg.maxPayload) ∧
    (bitmap.length ≠ s.cfg.nkroBitmapBytes →
      step { s with offers := .report (0x22 :: mods :: bitmap) now st :: rest } = .refused .notAnEncoderCall)
end

