-- ==== Sys2Proof/Laws/Memory.lean ====
section
/-! SUPPORT. The laws of the two storage spaces: a read after a write, the frame of a write, and the canonical form,
which every memory operation keeps. -/

namespace Sys2Proof.Machine

open Sys2Proof

theorem Memory.empty_wf : Memory.wf Memory.empty := by simp [Memory.wf, Memory.empty]

@[simp] theorem Memory.read_empty (a : Nat) : Memory.read Memory.empty a = 0 := rfl

@[simp] theorem Memory.read_nil (a : Nat) : Memory.read [] a = 0 := rfl

theorem Memory.wf_tail {c : Host.Cell} {m : Memory} (h : Memory.wf (c :: m)) : Memory.wf m :=
  ⟨(List.pairwise_cons.1 h.1).2, fun d hd => h.2 d (List.mem_cons_of_mem _ hd)⟩

/-- An address below every entry is unlisted. -/
theorem Memory.read_of_lt {m : Memory} {a : Nat} (h : ∀ c ∈ m, a < c.1) : Memory.read m a = 0 := by
  induction m with
  | nil => rfl
  | cons c m ih =>
    have hc := h c (List.mem_cons_self ..)
    simp only [Memory.read]
    rw [if_neg (by omega)]
    exact ih fun d hd => h d (List.mem_cons_of_mem _ hd)

/-- An address above every entry is unlisted. -/
theorem Memory.read_of_gt {m : Memory} {a : Nat} (h : ∀ c ∈ m, c.1 < a) : Memory.read m a = 0 := by
  induction m with
  | nil => rfl
  | cons c m ih =>
    have hc := h c (List.mem_cons_self ..)
    simp only [Memory.read]
    rw [if_neg (by omega)]
    exact ih fun d hd => h d (List.mem_cons_of_mem _ hd)

/-- An entry of a written memory is an old entry or the written byte. -/
theorem Memory.mem_write {m : Memory} {a : Nat} {v : Byte} {c : Host.Cell} (h : c ∈ Memory.write m a v) :
    c ∈ m ∨ (c = (a, v) ∧ v ≠ 0) := by
  induction m with
  | nil =>
    simp only [Memory.write] at h
    split at h <;> simp_all
  | cons d m ih =>
    obtain ⟨k, u⟩ := d
    simp only [Memory.write] at h
    split at h
    · split at h
      · exact .inl h
      · rcases List.mem_cons.1 h with h | h
        · exact .inr ⟨h, by assumption⟩
        · exact .inl h
    · split at h
      · split at h
        · exact .inl (List.mem_cons_of_mem _ h)
        · rcases List.mem_cons.1 h with h | h
          · exact .inr ⟨by simp_all, by assumption⟩
          · exact .inl (List.mem_cons_of_mem _ h)
      · rcases List.mem_cons.1 h with h | h
        · exact .inl (h ▸ List.mem_cons_self ..)
        · rcases ih h with h | h
          · exact .inl (List.mem_cons_of_mem _ h)
          · exact .inr h

/-- A write keeps the canonical form. -/
theorem Memory.write_wf {m : Memory} (h : Memory.wf m) (a : Nat) (v : Byte) : Memory.wf (Memory.write m a v) := by
  induction m with
  | nil => simp only [Memory.write]; split <;> simp_all [Memory.wf]
  | cons d m ih =>
    obtain ⟨k, u⟩ := d
    have ht := Memory.wf_tail h
    have hk := (List.pairwise_cons.1 h.1).1
    have hu := h.2 (k, u) (List.mem_cons_self ..)
    simp only [Memory.write]
    split
    · split
      · exact h
      · refine ⟨List.pairwise_cons.2 ⟨fun c hc => ?_, h.1⟩, fun c hc => ?_⟩
        · rcases List.mem_cons.1 hc with rfl | hc
          · assumption
          · have := hk c hc; simp only at *; omega
        · rcases List.mem_cons.1 hc with rfl | hc
          · assumption
          · exact h.2 c hc
    · split
      · split
        · exact ht
        · refine ⟨List.pairwise_cons.2 ⟨hk, ht.1⟩, fun c hc => ?_⟩
          rcases List.mem_cons.1 hc with rfl | hc
          · assumption
          · exact ht.2 c hc
      · have hw := ih ht
        refine ⟨List.pairwise_cons.2 ⟨fun c hc => ?_, hw.1⟩, fun c hc => ?_⟩
        · rcases Memory.mem_write hc with hc | ⟨rfl, -⟩
          · exact hk c hc
          · simp only; omega
        · rcases List.mem_cons.1 hc with rfl | hc
          · exact hu
          · exact hw.2 c hc

/-- A read after a write: the byte written at its address, every other byte as before. -/
theorem Memory.read_write {m : Memory} (h : Memory.wf m) (a : Nat) (v : Byte) (b : Nat) :
    Memory.read (Memory.write m a v) b = if b = a then v else Memory.read m b := by
  induction m with
  | nil =>
    simp only [Memory.write]
    by_cases hv : v = 0 <;> simp_all [Memory.read]
  | cons d m ih =>
    obtain ⟨k, u⟩ := d
    have ht := Memory.wf_tail h
    have hk := (List.pairwise_cons.1 h.1).1
    simp only [Memory.write]
    split
    · rename_i hak
      split
      · rename_i hv
        split
        · rename_i hba
          subst hba
          rw [Memory.read_of_lt, hv]
          intro c hc
          rcases List.mem_cons.1 hc with rfl | hc
          · exact hak
          · have := hk c hc; simp only at this; omega
        · rfl
      · simp only [Memory.read]
    · split
      · rename_i hak
        subst hak
        split
        · rename_i hv
          simp only [Memory.read]
          split
          · rename_i hba
            subst hba
            rw [Memory.read_of_lt hk, hv]
          · rfl
        · simp only [Memory.read]
          split <;> rfl
      · rename_i h1 h2
        simp only [Memory.read, ih ht]
        by_cases hbk : b = k
        · subst hbk
          rw [if_pos rfl, if_neg (by omega), if_pos rfl]
        · rw [if_neg hbk, if_neg hbk]

theorem Memory.writeList_wf (bs : List Byte) {m : Memory} (h : Memory.wf m) (a : Nat) :
    Memory.wf (Memory.writeList m a bs) := by
  induction bs generalizing m a with
  | nil => exact h
  | cons v vs ih => exact ih (Memory.write_wf h a v) (a + 1)

/-- A read after writing a list of bytes from `a` on. -/
theorem Memory.read_writeList (bs : List Byte) {m : Memory} (h : Memory.wf m) (a b : Nat) :
    Memory.read (Memory.writeList m a bs) b =
      if a ≤ b ∧ b < a + bs.length then bs.getD (b - a) 0 else Memory.read m b := by
  induction bs generalizing m a with
  | nil => simp only [Memory.writeList, List.length_nil]; rw [if_neg (by omega)]
  | cons v vs ih =>
    rw [Memory.writeList, ih (Memory.write_wf h a v), Memory.read_write h]
    simp only [List.length_cons]
    by_cases hba : b = a
    · subst hba
      rw [if_neg (by omega), if_pos rfl, if_pos (by omega)]
      simp
    · by_cases hin : a + 1 ≤ b ∧ b < a + 1 + vs.length
      · rw [if_pos hin, if_pos (by omega), show b - a = (b - (a + 1)) + 1 by omega]
        simp
      · rw [if_neg hin, if_neg hba, if_neg (by omega)]

theorem Memory.mem_writeList (bs : List Byte) {m : Memory} {a : Nat} {c : Host.Cell}
    (h : c ∈ Memory.writeList m a bs) : c ∈ m ∨ (a ≤ c.1 ∧ c.1 < a + bs.length) := by
  induction bs generalizing m a with
  | nil => exact .inl h
  | cons v vs ih =>
    rcases ih h with h | h
    · rcases Memory.mem_write h with h | ⟨rfl, -⟩
      · exact .inl h
      · exact .inr ⟨Nat.le_refl _, by simp⟩
    · exact .inr ⟨by omega, by simp only [List.length_cons]; omega⟩

@[simp] theorem Memory.readList_length (m : Memory) (a n : Nat) : (Memory.readList m a n).length = n := by
  induction n generalizing a with
  | zero => rfl
  | succ n ih => simp [Memory.readList, ih]

/-- Byte `i` of a list of bytes read from `a` on. -/
theorem Memory.getD_readList (m : Memory) (a n i : Nat) (h : i < n) :
    (Memory.readList m a n).getD i 0 = Memory.read m (a + i) := by
  induction n generalizing a i with
  | zero => omega
  | succ n ih =>
    cases i with
    | zero => simp [Memory.readList]
    | succ i =>
      rw [Memory.readList, List.getD_cons_succ, ih _ _ (by omega), show a + 1 + i = a + (i + 1) by omega]

/-- What was written as a list is read back as that list. -/
theorem Memory.readList_writeList (bs : List Byte) {m : Memory} (h : Memory.wf m) :
    Memory.readList (Memory.writeList m 0 bs) 0 bs.length = bs := by
  apply List.ext_getElem (by simp)
  intro i h1 h2
  have hi : i < bs.length := h2
  have := Memory.getD_readList (Memory.writeList m 0 bs) 0 bs.length i hi
  rw [Memory.read_writeList bs h, if_pos (by omega)] at this
  simpa [List.getD_eq_getElem?_getD, h1, h2] using this

end Sys2Proof.Machine
end

