-- ==== Sys2Proof/Laws/Inv.lean ====
section
/-! SUPPORT. The invariant from conditions that a concrete state decides: the quantifier over all addresses in
`FramerInv.clean` follows from the listed addresses. -/

namespace Sys2Proof.Machine

open Sys2Proof

/-- What a concrete state must decide to meet `Inv`. -/
abbrev InvCheck (s : State) : Prop :=
  s.cfg.Wf ∧ (∀ c ∈ s.rxbuf, c.1 < s.rxidx) ∧ (s.fst = .idle → s.rxidx = 0 ∧ s.rxexp = 0) ∧
  (s.fst = .sawHeader1 ∨ s.fst = .sawHeader2 ∨ s.fst = .sawLength → s.rxexp = 0) ∧
  (s.fst = .sawHeader1 → s.rxidx = 1) ∧ (s.fst = .sawHeader2 → s.rxidx = 2) ∧
  (s.fst = .sawLength →
    s.rxidx = 3 ∧ (Memory.read s.rxbuf 2 = s.cfg.ackv ∨ Memory.read s.rxbuf 2 = s.cfg.noackv)) ∧
  (s.fst = .accumulating →
    4 ≤ s.rxidx ∧ s.rxidx ≤ s.rxexp ∧ s.rxexp = 7 + (Memory.read s.rxbuf 3).toNat ∧
      (Memory.read s.rxbuf 3).toNat ≤ s.cfg.maxPayload ∧ s.rxexp ≤ s.cfg.frameBufSize) ∧
  (s.fst ≠ .idle → Memory.read s.rxbuf 0 = s.cfg.header1) ∧
  (s.fst = .sawHeader2 ∨ s.fst = .sawLength ∨ s.fst = .accumulating → Memory.read s.rxbuf 1 = s.cfg.header2) ∧
  (s.wst = .idle → s.wakeOut = true) ∧
  (Memory.wf s.rxbuf ∧ Memory.wf s.txbuf ∧
    (∀ c ∈ s.rxbuf, c.1 < s.cfg.frameBufSize) ∧ (∀ c ∈ s.txbuf, c.1 < s.cfg.frameBufSize)) ∧
  s.txlen ≤ s.cfg.frameBufSize ∧
  (s.tLastRx < 2 ^ s.cfg.timerWidth ∧ s.tStart < 2 ^ s.cfg.timerWidth ∧
    s.tToggle < 2 ^ s.cfg.timerWidth ∧ s.tHold < 2 ^ s.cfg.timerWidth) ∧
  (∀ f ∈ s.frames, f.length = 7 + frameLen f ∧ validate s.cfg f = .ok)

theorem inv_of_check {s : State} (h : InvCheck s) : Inv s := by
  obtain ⟨hcfg, hclean, hidle, hheader, h1, h2, hlen, hacc, hk0, hk1, hpin, hmem, htx, htime, hframes⟩ := h
  exact
    { cfg := hcfg
      framer :=
        { clean := fun i hi => Memory.read_of_gt fun c hc => Nat.lt_of_lt_of_le (hclean c hc) hi
          idle := hidle
          header := hheader
          sawHeader1 := fun e => ⟨h1 e, hk0 (by simp [e])⟩
          sawHeader2 := fun e => ⟨h2 e, hk0 (by simp [e]), hk1 (.inl e)⟩
          sawLength := hlen
          accumulating := hacc }
      headers := ⟨hk0, fun e => hk1 (.inr e)⟩
      wakePin := hpin
      memory := hmem
      txLen := htx
      time := htime
      frames := hframes }

end Sys2Proof.Machine
end

