-- ==== Sys2Proof/Laws/State.lean ====
section
/-! SUPPORT. One lemma per field per update of the state, so that no proof unfolds a record update. -/

namespace Sys2Proof.Machine

open Sys2Proof

/-! ### `observe` -/

@[simp] theorem observe_cfg (o : Obs) (s : State) : (observe o s).cfg = s.cfg := rfl
@[simp] theorem observe_fst (o : Obs) (s : State) : (observe o s).fst = s.fst := rfl
@[simp] theorem observe_rxbuf (o : Obs) (s : State) : (observe o s).rxbuf = s.rxbuf := rfl
@[simp] theorem observe_rxidx (o : Obs) (s : State) : (observe o s).rxidx = s.rxidx := rfl
@[simp] theorem observe_rxexp (o : Obs) (s : State) : (observe o s).rxexp = s.rxexp := rfl
@[simp] theorem observe_tLastRx (o : Obs) (s : State) : (observe o s).tLastRx = s.tLastRx := rfl
@[simp] theorem observe_wst (o : Obs) (s : State) : (observe o s).wst = s.wst := rfl
@[simp] theorem observe_wakeOut (o : Obs) (s : State) : (observe o s).wakeOut = s.wakeOut := rfl
@[simp] theorem observe_txbuf (o : Obs) (s : State) : (observe o s).txbuf = s.txbuf := rfl
@[simp] theorem observe_txlen (o : Obs) (s : State) : (observe o s).txlen = s.txlen := rfl
@[simp] theorem observe_tStart (o : Obs) (s : State) : (observe o s).tStart = s.tStart := rfl
@[simp] theorem observe_tToggle (o : Obs) (s : State) : (observe o s).tToggle = s.tToggle := rfl
@[simp] theorem observe_tHold (o : Obs) (s : State) : (observe o s).tHold = s.tHold := rfl
@[simp] theorem observe_offers (o : Obs) (s : State) : (observe o s).offers = s.offers := rfl
@[simp] theorem observe_frames (o : Obs) (s : State) : (observe o s).frames = s.frames := rfl
@[simp] theorem observe_issued (o : Obs) (s : State) : (observe o s).issued = s.issued := rfl
@[simp] theorem observe_trace (o : Obs) (s : State) : (observe o s).trace = s.trace ++ [o] := rfl

/-! ### `respond` -/

@[simp] theorem respond_cfg (c : Code) (d : Data) (s : State) : (respond c d s).cfg = s.cfg := rfl
@[simp] theorem respond_fst (c : Code) (d : Data) (s : State) : (respond c d s).fst = s.fst := rfl
@[simp] theorem respond_rxbuf (c : Code) (d : Data) (s : State) : (respond c d s).rxbuf = s.rxbuf := rfl
@[simp] theorem respond_rxidx (c : Code) (d : Data) (s : State) : (respond c d s).rxidx = s.rxidx := rfl
@[simp] theorem respond_rxexp (c : Code) (d : Data) (s : State) : (respond c d s).rxexp = s.rxexp := rfl
@[simp] theorem respond_tLastRx (c : Code) (d : Data) (s : State) : (respond c d s).tLastRx = s.tLastRx := rfl
@[simp] theorem respond_wst (c : Code) (d : Data) (s : State) : (respond c d s).wst = s.wst := rfl
@[simp] theorem respond_wakeOut (c : Code) (d : Data) (s : State) : (respond c d s).wakeOut = s.wakeOut := rfl
@[simp] theorem respond_txbuf (c : Code) (d : Data) (s : State) : (respond c d s).txbuf = s.txbuf := rfl
@[simp] theorem respond_txlen (c : Code) (d : Data) (s : State) : (respond c d s).txlen = s.txlen := rfl
@[simp] theorem respond_tStart (c : Code) (d : Data) (s : State) : (respond c d s).tStart = s.tStart := rfl
@[simp] theorem respond_tToggle (c : Code) (d : Data) (s : State) : (respond c d s).tToggle = s.tToggle := rfl
@[simp] theorem respond_tHold (c : Code) (d : Data) (s : State) : (respond c d s).tHold = s.tHold := rfl
@[simp] theorem respond_offers (c : Code) (d : Data) (s : State) : (respond c d s).offers = s.offers := rfl
@[simp] theorem respond_frames (c : Code) (d : Data) (s : State) : (respond c d s).frames = s.frames := rfl
@[simp] theorem respond_issued (c : Code) (d : Data) (s : State) : (respond c d s).issued = s.issued := rfl
@[simp] theorem respond_trace (c : Code) (d : Data) (s : State) : (respond c d s).trace = s.trace ++ [.response c d] := rfl

/-! ### `hold` -/

@[simp] theorem hold_cfg (s : State) : (hold s).cfg = s.cfg := rfl
@[simp] theorem hold_fst (s : State) : (hold s).fst = s.fst := rfl
@[simp] theorem hold_rxbuf (s : State) : (hold s).rxbuf = s.rxbuf := rfl
@[simp] theorem hold_rxidx (s : State) : (hold s).rxidx = s.rxidx := rfl
@[simp] theorem hold_rxexp (s : State) : (hold s).rxexp = s.rxexp := rfl
@[simp] theorem hold_tLastRx (s : State) : (hold s).tLastRx = s.tLastRx := rfl
@[simp] theorem hold_wst (s : State) : (hold s).wst = s.wst := rfl
@[simp] theorem hold_wakeOut (s : State) : (hold s).wakeOut = s.wakeOut := rfl
@[simp] theorem hold_txbuf (s : State) : (hold s).txbuf = s.txbuf := rfl
@[simp] theorem hold_txlen (s : State) : (hold s).txlen = s.txlen := rfl
@[simp] theorem hold_tStart (s : State) : (hold s).tStart = s.tStart := rfl
@[simp] theorem hold_tToggle (s : State) : (hold s).tToggle = s.tToggle := rfl
@[simp] theorem hold_tHold (s : State) : (hold s).tHold = s.tHold := rfl
@[simp] theorem hold_offers (s : State) : (hold s).offers = s.offers := rfl
@[simp] theorem hold_frames (s : State) : (hold s).frames = s.frames := rfl
@[simp] theorem hold_issued (s : State) : (hold s).issued = s.issued := rfl
@[simp] theorem hold_trace (s : State) : (hold s).trace = s.trace ++ [.held] := rfl

/-! ### `illegal` -/

@[simp] theorem illegal_cfg (s : State) : (illegal s).cfg = s.cfg := rfl
@[simp] theorem illegal_fst (s : State) : (illegal s).fst = s.fst := rfl
@[simp] theorem illegal_rxbuf (s : State) : (illegal s).rxbuf = s.rxbuf := rfl
@[simp] theorem illegal_rxidx (s : State) : (illegal s).rxidx = s.rxidx := rfl
@[simp] theorem illegal_rxexp (s : State) : (illegal s).rxexp = s.rxexp := rfl
@[simp] theorem illegal_tLastRx (s : State) : (illegal s).tLastRx = s.tLastRx := rfl
@[simp] theorem illegal_wst (s : State) : (illegal s).wst = s.wst := rfl
@[simp] theorem illegal_wakeOut (s : State) : (illegal s).wakeOut = s.wakeOut := rfl
@[simp] theorem illegal_txbuf (s : State) : (illegal s).txbuf = s.txbuf := rfl
@[simp] theorem illegal_txlen (s : State) : (illegal s).txlen = s.txlen := rfl
@[simp] theorem illegal_tStart (s : State) : (illegal s).tStart = s.tStart := rfl
@[simp] theorem illegal_tToggle (s : State) : (illegal s).tToggle = s.tToggle := rfl
@[simp] theorem illegal_tHold (s : State) : (illegal s).tHold = s.tHold := rfl
@[simp] theorem illegal_offers (s : State) : (illegal s).offers = s.offers := rfl
@[simp] theorem illegal_frames (s : State) : (illegal s).frames = s.frames := rfl
@[simp] theorem illegal_issued (s : State) : (illegal s).issued = s.issued := rfl
@[simp] theorem illegal_trace (s : State) : (illegal s).trace = s.trace ++ [.response .illegalRequest .none] := rfl

/-! ### `emitTx` -/

@[simp] theorem emitTx_cfg (bs : List Byte) (s : State) : (emitTx bs s).cfg = s.cfg := rfl
@[simp] theorem emitTx_fst (bs : List Byte) (s : State) : (emitTx bs s).fst = s.fst := rfl
@[simp] theorem emitTx_rxbuf (bs : List Byte) (s : State) : (emitTx bs s).rxbuf = s.rxbuf := rfl
@[simp] theorem emitTx_rxidx (bs : List Byte) (s : State) : (emitTx bs s).rxidx = s.rxidx := rfl
@[simp] theorem emitTx_rxexp (bs : List Byte) (s : State) : (emitTx bs s).rxexp = s.rxexp := rfl
@[simp] theorem emitTx_tLastRx (bs : List Byte) (s : State) : (emitTx bs s).tLastRx = s.tLastRx := rfl
@[simp] theorem emitTx_wst (bs : List Byte) (s : State) : (emitTx bs s).wst = s.wst := rfl
@[simp] theorem emitTx_wakeOut (bs : List Byte) (s : State) : (emitTx bs s).wakeOut = s.wakeOut := rfl
@[simp] theorem emitTx_txbuf (bs : List Byte) (s : State) : (emitTx bs s).txbuf = s.txbuf := rfl
@[simp] theorem emitTx_txlen (bs : List Byte) (s : State) : (emitTx bs s).txlen = s.txlen := rfl
@[simp] theorem emitTx_tStart (bs : List Byte) (s : State) : (emitTx bs s).tStart = s.tStart := rfl
@[simp] theorem emitTx_tToggle (bs : List Byte) (s : State) : (emitTx bs s).tToggle = s.tToggle := rfl
@[simp] theorem emitTx_tHold (bs : List Byte) (s : State) : (emitTx bs s).tHold = s.tHold := rfl
@[simp] theorem emitTx_offers (bs : List Byte) (s : State) : (emitTx bs s).offers = s.offers := rfl
@[simp] theorem emitTx_frames (bs : List Byte) (s : State) : (emitTx bs s).frames = s.frames := rfl
@[simp] theorem emitTx_issued (bs : List Byte) (s : State) : (emitTx bs s).issued = s.issued := rfl
@[simp] theorem emitTx_trace (bs : List Byte) (s : State) : (emitTx bs s).trace = s.trace ++ [.tx bs] := rfl

/-! ### `emitFrame` -/

@[simp] theorem emitFrame_cfg (f : List Byte) (s : State) : (emitFrame f s).cfg = s.cfg := rfl
@[simp] theorem emitFrame_fst (f : List Byte) (s : State) : (emitFrame f s).fst = s.fst := rfl
@[simp] theorem emitFrame_rxbuf (f : List Byte) (s : State) : (emitFrame f s).rxbuf = s.rxbuf := rfl
@[simp] theorem emitFrame_rxidx (f : List Byte) (s : State) : (emitFrame f s).rxidx = s.rxidx := rfl
@[simp] theorem emitFrame_rxexp (f : List Byte) (s : State) : (emitFrame f s).rxexp = s.rxexp := rfl
@[simp] theorem emitFrame_tLastRx (f : List Byte) (s : State) : (emitFrame f s).tLastRx = s.tLastRx := rfl
@[simp] theorem emitFrame_wst (f : List Byte) (s : State) : (emitFrame f s).wst = s.wst := rfl
@[simp] theorem emitFrame_wakeOut (f : List Byte) (s : State) : (emitFrame f s).wakeOut = s.wakeOut := rfl
@[simp] theorem emitFrame_txbuf (f : List Byte) (s : State) : (emitFrame f s).txbuf = s.txbuf := rfl
@[simp] theorem emitFrame_txlen (f : List Byte) (s : State) : (emitFrame f s).txlen = s.txlen := rfl
@[simp] theorem emitFrame_tStart (f : List Byte) (s : State) : (emitFrame f s).tStart = s.tStart := rfl
@[simp] theorem emitFrame_tToggle (f : List Byte) (s : State) : (emitFrame f s).tToggle = s.tToggle := rfl
@[simp] theorem emitFrame_tHold (f : List Byte) (s : State) : (emitFrame f s).tHold = s.tHold := rfl
@[simp] theorem emitFrame_offers (f : List Byte) (s : State) : (emitFrame f s).offers = s.offers := rfl
@[simp] theorem emitFrame_frames (f : List Byte) (s : State) : (emitFrame f s).frames = s.frames ++ [f] := rfl
@[simp] theorem emitFrame_issued (f : List Byte) (s : State) : (emitFrame f s).issued = s.issued := rfl
@[simp] theorem emitFrame_trace (f : List Byte) (s : State) : (emitFrame f s).trace = s.trace ++ [.frameOut f] := rfl

/-! ### `emitCall` -/

@[simp] theorem emitCall_cfg (c : Call) (s : State) : (emitCall c s).cfg = s.cfg := rfl
@[simp] theorem emitCall_fst (c : Call) (s : State) : (emitCall c s).fst = s.fst := rfl
@[simp] theorem emitCall_rxbuf (c : Call) (s : State) : (emitCall c s).rxbuf = s.rxbuf := rfl
@[simp] theorem emitCall_rxidx (c : Call) (s : State) : (emitCall c s).rxidx = s.rxidx := rfl
@[simp] theorem emitCall_rxexp (c : Call) (s : State) : (emitCall c s).rxexp = s.rxexp := rfl
@[simp] theorem emitCall_tLastRx (c : Call) (s : State) : (emitCall c s).tLastRx = s.tLastRx := rfl
@[simp] theorem emitCall_wst (c : Call) (s : State) : (emitCall c s).wst = s.wst := rfl
@[simp] theorem emitCall_wakeOut (c : Call) (s : State) : (emitCall c s).wakeOut = s.wakeOut := rfl
@[simp] theorem emitCall_txbuf (c : Call) (s : State) : (emitCall c s).txbuf = s.txbuf := rfl
@[simp] theorem emitCall_txlen (c : Call) (s : State) : (emitCall c s).txlen = s.txlen := rfl
@[simp] theorem emitCall_tStart (c : Call) (s : State) : (emitCall c s).tStart = s.tStart := rfl
@[simp] theorem emitCall_tToggle (c : Call) (s : State) : (emitCall c s).tToggle = s.tToggle := rfl
@[simp] theorem emitCall_tHold (c : Call) (s : State) : (emitCall c s).tHold = s.tHold := rfl
@[simp] theorem emitCall_offers (c : Call) (s : State) : (emitCall c s).offers = s.offers := rfl
@[simp] theorem emitCall_frames (c : Call) (s : State) : (emitCall c s).frames = s.frames := rfl
@[simp] theorem emitCall_issued (c : Call) (s : State) : (emitCall c s).issued = s.issued := rfl
@[simp] theorem emitCall_trace (c : Call) (s : State) : (emitCall c s).trace = s.trace ++ [.call c] := rfl

/-! ### `clear` -/

@[simp] theorem clear_cfg (s : State) : (clear s).cfg = s.cfg := rfl
@[simp] theorem clear_fst (s : State) : (clear s).fst = .idle := rfl
@[simp] theorem clear_rxbuf (s : State) : (clear s).rxbuf = [] := rfl
@[simp] theorem clear_rxidx (s : State) : (clear s).rxidx = 0 := rfl
@[simp] theorem clear_rxexp (s : State) : (clear s).rxexp = 0 := rfl
@[simp] theorem clear_tLastRx (s : State) : (clear s).tLastRx = s.tLastRx := rfl
@[simp] theorem clear_wst (s : State) : (clear s).wst = s.wst := rfl
@[simp] theorem clear_wakeOut (s : State) : (clear s).wakeOut = s.wakeOut := rfl
@[simp] theorem clear_txbuf (s : State) : (clear s).txbuf = s.txbuf := rfl
@[simp] theorem clear_txlen (s : State) : (clear s).txlen = s.txlen := rfl
@[simp] theorem clear_tStart (s : State) : (clear s).tStart = s.tStart := rfl
@[simp] theorem clear_tToggle (s : State) : (clear s).tToggle = s.tToggle := rfl
@[simp] theorem clear_tHold (s : State) : (clear s).tHold = s.tHold := rfl
@[simp] theorem clear_offers (s : State) : (clear s).offers = s.offers := rfl
@[simp] theorem clear_frames (s : State) : (clear s).frames = s.frames := rfl
@[simp] theorem clear_issued (s : State) : (clear s).issued = s.issued := rfl
@[simp] theorem clear_trace (s : State) : (clear s).trace = s.trace := rfl

/-! ### `resetState` -/

@[simp] theorem resetState_cfg (s : State) : (resetState s).cfg = s.cfg := rfl
@[simp] theorem resetState_fst (s : State) : (resetState s).fst = .idle := rfl
@[simp] theorem resetState_rxbuf (s : State) : (resetState s).rxbuf = [] := rfl
@[simp] theorem resetState_rxidx (s : State) : (resetState s).rxidx = 0 := rfl
@[simp] theorem resetState_rxexp (s : State) : (resetState s).rxexp = 0 := rfl
@[simp] theorem resetState_tLastRx (s : State) : (resetState s).tLastRx = 0 := rfl
@[simp] theorem resetState_wst (s : State) : (resetState s).wst = .idle := rfl
@[simp] theorem resetState_wakeOut (s : State) : (resetState s).wakeOut = s.wakeOut := rfl
@[simp] theorem resetState_txbuf (s : State) : (resetState s).txbuf = [] := rfl
@[simp] theorem resetState_txlen (s : State) : (resetState s).txlen = 0 := rfl
@[simp] theorem resetState_tStart (s : State) : (resetState s).tStart = 0 := rfl
@[simp] theorem resetState_tToggle (s : State) : (resetState s).tToggle = 0 := rfl
@[simp] theorem resetState_tHold (s : State) : (resetState s).tHold = 0 := rfl
@[simp] theorem resetState_offers (s : State) : (resetState s).offers = s.offers := rfl
@[simp] theorem resetState_frames (s : State) : (resetState s).frames = s.frames := rfl
@[simp] theorem resetState_issued (s : State) : (resetState s).issued = s.issued := rfl
@[simp] theorem resetState_trace (s : State) : (resetState s).trace = s.trace := rfl

/-! ### `setWakeOut`, `enterWake` and `endWake` -/

@[simp] theorem setWakeOut_cfg (now : Nat) (l : Bool) (s : State) : (setWakeOut now l s).cfg = s.cfg := by
  unfold setWakeOut; split <;> rfl
@[simp] theorem setWakeOut_fst (now : Nat) (l : Bool) (s : State) : (setWakeOut now l s).fst = s.fst := by
  unfold setWakeOut; split <;> rfl
@[simp] theorem setWakeOut_rxbuf (now : Nat) (l : Bool) (s : State) : (setWakeOut now l s).rxbuf = s.rxbuf := by
  unfold setWakeOut; split <;> rfl
@[simp] theorem setWakeOut_rxidx (now : Nat) (l : Bool) (s : State) : (setWakeOut now l s).rxidx = s.rxidx := by
  unfold setWakeOut; split <;> rfl
@[simp] theorem setWakeOut_rxexp (now : Nat) (l : Bool) (s : State) : (setWakeOut now l s).rxexp = s.rxexp := by
  unfold setWakeOut; split <;> rfl
@[simp] theorem setWakeOut_tLastRx (now : Nat) (l : Bool) (s : State) : (setWakeOut now l s).tLastRx = s.tLastRx := by
  unfold setWakeOut; split <;> rfl
@[simp] theorem setWakeOut_wst (now : Nat) (l : Bool) (s : State) : (setWakeOut now l s).wst = s.wst := by
  unfold setWakeOut; split <;> rfl
@[simp] theorem setWakeOut_wakeOut (now : Nat) (l : Bool) (s : State) : (setWakeOut now l s).wakeOut = l := by
  unfold setWakeOut; split <;> simp_all
@[simp] theorem setWakeOut_txbuf (now : Nat) (l : Bool) (s : State) : (setWakeOut now l s).txbuf = s.txbuf := by
  unfold setWakeOut; split <;> rfl
@[simp] theorem setWakeOut_txlen (now : Nat) (l : Bool) (s : State) : (setWakeOut now l s).txlen = s.txlen := by
  unfold setWakeOut; split <;> rfl
@[simp] theorem setWakeOut_tStart (now : Nat) (l : Bool) (s : State) : (setWakeOut now l s).tStart = s.tStart := by
  unfold setWakeOut; split <;> rfl
@[simp] theorem setWakeOut_tToggle (now : Nat) (l : Bool) (s : State) : (setWakeOut now l s).tToggle = s.tToggle := by
  unfold setWakeOut; split <;> rfl
@[simp] theorem setWakeOut_tHold (now : Nat) (l : Bool) (s : State) : (setWakeOut now l s).tHold = s.tHold := by
  unfold setWakeOut; split <;> rfl
@[simp] theorem setWakeOut_offers (now : Nat) (l : Bool) (s : State) : (setWakeOut now l s).offers = s.offers := by
  unfold setWakeOut; split <;> rfl
@[simp] theorem setWakeOut_frames (now : Nat) (l : Bool) (s : State) : (setWakeOut now l s).frames = s.frames := by
  unfold setWakeOut; split <;> rfl
@[simp] theorem setWakeOut_issued (now : Nat) (l : Bool) (s : State) : (setWakeOut now l s).issued = s.issued := by
  unfold setWakeOut; split <;> rfl
theorem setWakeOut_trace (now : Nat) (l : Bool) (s : State) :
    (setWakeOut now l s).trace = if s.wakeOut = l then s.trace else s.trace ++ [.wakeOut now l] := by
  unfold setWakeOut; split <;> simp_all

@[simp] theorem enterWake_cfg (now : Nat) (s : State) : (enterWake now s).cfg = s.cfg := by simp [enterWake]
@[simp] theorem enterWake_fst (now : Nat) (s : State) : (enterWake now s).fst = s.fst := by simp [enterWake]
@[simp] theorem enterWake_rxbuf (now : Nat) (s : State) : (enterWake now s).rxbuf = s.rxbuf := by simp [enterWake]
@[simp] theorem enterWake_rxidx (now : Nat) (s : State) : (enterWake now s).rxidx = s.rxidx := by simp [enterWake]
@[simp] theorem enterWake_rxexp (now : Nat) (s : State) : (enterWake now s).rxexp = s.rxexp := by simp [enterWake]
@[simp] theorem enterWake_tLastRx (now : Nat) (s : State) : (enterWake now s).tLastRx = s.tLastRx := by simp [enterWake]
@[simp] theorem enterWake_wst (now : Nat) (s : State) : (enterWake now s).wst = .waking := rfl
@[simp] theorem enterWake_wakeOut (now : Nat) (s : State) : (enterWake now s).wakeOut = true := by simp [enterWake]
@[simp] theorem enterWake_txbuf (now : Nat) (s : State) : (enterWake now s).txbuf = s.txbuf := by simp [enterWake]
@[simp] theorem enterWake_txlen (now : Nat) (s : State) : (enterWake now s).txlen = s.txlen := by simp [enterWake]
@[simp] theorem enterWake_tStart (now : Nat) (s : State) : (enterWake now s).tStart = now := rfl
@[simp] theorem enterWake_tToggle (now : Nat) (s : State) : (enterWake now s).tToggle = now := rfl
@[simp] theorem enterWake_tHold (now : Nat) (s : State) : (enterWake now s).tHold = now := rfl
@[simp] theorem enterWake_offers (now : Nat) (s : State) : (enterWake now s).offers = s.offers := by simp [enterWake]
@[simp] theorem enterWake_frames (now : Nat) (s : State) : (enterWake now s).frames = s.frames := by simp [enterWake]
@[simp] theorem enterWake_issued (now : Nat) (s : State) : (enterWake now s).issued = s.issued := by simp [enterWake]
theorem enterWake_trace (now : Nat) (s : State) : (enterWake now s).trace = (setWakeOut now true s).trace := rfl

@[simp] theorem endWake_cfg (now : Nat) (s : State) : (endWake now s).cfg = s.cfg := by simp [endWake]
@[simp] theorem endWake_fst (now : Nat) (s : State) : (endWake now s).fst = s.fst := by simp [endWake]
@[simp] theorem endWake_rxbuf (now : Nat) (s : State) : (endWake now s).rxbuf = s.rxbuf := by simp [endWake]
@[simp] theorem endWake_rxidx (now : Nat) (s : State) : (endWake now s).rxidx = s.rxidx := by simp [endWake]
@[simp] theorem endWake_rxexp (now : Nat) (s : State) : (endWake now s).rxexp = s.rxexp := by simp [endWake]
@[simp] theorem endWake_tLastRx (now : Nat) (s : State) : (endWake now s).tLastRx = s.tLastRx := by simp [endWake]
@[simp] theorem endWake_wst (now : Nat) (s : State) : (endWake now s).wst = .idle := rfl
@[simp] theorem endWake_wakeOut (now : Nat) (s : State) : (endWake now s).wakeOut = true := by simp [endWake]
@[simp] theorem endWake_txbuf (now : Nat) (s : State) : (endWake now s).txbuf = s.txbuf := by simp [endWake]
@[simp] theorem endWake_txlen (now : Nat) (s : State) : (endWake now s).txlen = s.txlen := by simp [endWake]
@[simp] theorem endWake_tStart (now : Nat) (s : State) : (endWake now s).tStart = s.tStart := by simp [endWake]
@[simp] theorem endWake_tToggle (now : Nat) (s : State) : (endWake now s).tToggle = s.tToggle := by simp [endWake]
@[simp] theorem endWake_tHold (now : Nat) (s : State) : (endWake now s).tHold = s.tHold := by simp [endWake]
@[simp] theorem endWake_offers (now : Nat) (s : State) : (endWake now s).offers = s.offers := by simp [endWake]
@[simp] theorem endWake_frames (now : Nat) (s : State) : (endWake now s).frames = s.frames := by simp [endWake]
@[simp] theorem endWake_issued (now : Nat) (s : State) : (endWake now s).issued = s.issued := by simp [endWake]
theorem endWake_trace (now : Nat) (s : State) : (endWake now s).trace = (setWakeOut now true s).trace := rfl

end Sys2Proof.Machine
end

