-- ==== Sys2Proof/Laws/Ops.lean ====
section
/-! SUPPORT. One lemma per shared operation that says all it can do, for proofs to cite instead of unfolding it. -/

namespace Sys2Proof.Machine

open Sys2Proof

@[simp] theorem outcomeOf_eq_next {r : Except Fault State} {t : State} : outcomeOf r = .next t ↔ r = .ok t := by
  cases r <;> simp [outcomeOf]

@[simp] theorem outcomeOf_eq_fault {r : Except Fault State} {e : Fault} : outcomeOf r = .fault e ↔ r = .error e := by
  cases r <;> simp [outcomeOf]

@[simp] theorem outcomeOf_ne_refused (r : Except Fault State) (e : Refusal) : outcomeOf r ≠ .refused e := by
  cases r <;> simp [outcomeOf]

@[simp] theorem except_map_eq_ok {ε α β : Type} {r : Except ε α} {f : α → β} {b : β} :
    r.map f = .ok b ↔ ∃ a, r = .ok a ∧ f a = b := by
  cases r <;> simp [Except.map]

@[simp] theorem except_map_eq_error {ε α β : Type} {r : Except ε α} {f : α → β} {e : ε} :
    r.map f = .error e ↔ r = .error e := by
  cases r <;> simp [Except.map]

@[simp] theorem except_bind_eq_ok {ε α β : Type} {r : Except ε α} {f : α → Except ε β} {b : β} :
    r.bind f = .ok b ↔ ∃ a, r = .ok a ∧ f a = .ok b := by
  cases r <;> simp [Except.bind]

@[simp] theorem except_bind_eq_error {ε α β : Type} {r : Except ε α} {f : α → Except ε β} {e : ε} :
    r.bind f = .error e ↔ r = .error e ∨ ∃ a, r = .ok a ∧ f a = .error e := by
  cases r <;> simp [Except.bind]

/-! ### Space RX and the framer's primitives -/

theorem rxWrite_eq_ok {i : Nat} {v : Byte} {s t : State} :
    rxWrite i v s = .ok t ↔
      i < s.cfg.frameBufSize ∧ t = { s with rxbuf := Memory.write s.rxbuf i v } := by
  unfold rxWrite; split <;> simp_all [eq_comm]

theorem record_eq_ok {b : Byte} {s t : State} :
    record b s = .ok t ↔
      s.rxidx < s.cfg.frameBufSize ∧
        t = { s with rxbuf := Memory.write s.rxbuf s.rxidx b, rxidx := s.rxidx + 1 } := by
  unfold record rxWrite; split <;> simp_all [Except.map, eq_comm]

theorem record_eq_error {b : Byte} {s : State} {e : Fault} :
    record b s = .error e ↔ s.cfg.frameBufSize ≤ s.rxidx ∧ e = .rxAddress := by
  unfold record rxWrite
  split
  · simp only [Except.map, reduceCtorEq, false_iff]; omega
  · simp only [Except.map, Except.error.injEq]; constructor
    · rintro rfl; exact ⟨by omega, rfl⟩
    · rintro ⟨-, rfl⟩; rfl

theorem restart_eq_ok {b : Byte} {s t : State} :
    restart b s = .ok t ↔
      0 < s.cfg.frameBufSize ∧
        t = { clear s with rxbuf := Memory.write [] 0 b, rxidx := 1, fst := .sawHeader1 } := by
  unfold restart
  simp only [except_map_eq_ok, record_eq_ok, clear_rxidx, clear_cfg, clear_rxbuf]
  constructor
  · rintro ⟨a, ⟨h, rfl⟩, rfl⟩; exact ⟨h, rfl⟩
  · rintro ⟨h, rfl⟩; exact ⟨_, ⟨h, rfl⟩, rfl⟩

theorem restart_eq_error {b : Byte} {s : State} {e : Fault} :
    restart b s = .error e ↔ s.cfg.frameBufSize = 0 ∧ e = .rxAddress := by
  unfold restart
  rw [except_map_eq_error, record_eq_error]
  simp

theorem complete_eq_ok {s : State} {r : State × List Code} :
    complete s = .ok r ↔
      s.rxexp ≤ s.cfg.frameBufSize ∧
        r = (if validate s.cfg (Memory.readList s.rxbuf 0 s.rxexp) = .ok then
              (clear (emitFrame (Memory.readList s.rxbuf 0 s.rxexp) s), [.frameValid])
            else (clear s, [validate s.cfg (Memory.readList s.rxbuf 0 s.rxexp)])) := by
  unfold complete rxRead
  split
  · simp only [Except.map, Except.ok.injEq]
    generalize validate s.cfg (Memory.readList s.rxbuf 0 s.rxexp) = v
    cases v <;> simp_all [eq_comm]
  · simp_all [Except.map]

theorem complete_eq_error {s : State} {e : Fault} :
    complete s = .error e ↔ s.cfg.frameBufSize < s.rxexp ∧ e = .rxAddress := by
  unfold complete rxRead
  split
  · simp only [Except.map, reduceCtorEq, false_iff]; omega
  · simp only [Except.map, Except.error.injEq]; constructor
    · rintro rfl; exact ⟨by omega, rfl⟩
    · rintro ⟨-, rfl⟩; rfl

theorem noEvent_eq_ok {r : Except Fault State} {p : State × List Code} :
    noEvent r = .ok p ↔ ∃ t, r = .ok t ∧ p = (t, []) := by
  unfold noEvent
  rw [except_map_eq_ok]
  exact exists_congr fun t => and_congr_right fun _ => eq_comm

theorem inactivityCheck_cases (now : Nat) (s : State) :
    (inactive now s ∧ inactivityCheck now s = (clear s, [.inactivityReset])) ∨
      (¬ inactive now s ∧ inactivityCheck now s = (s, [])) := by
  unfold inactivityCheck; split
  · exact .inl ⟨by assumption, rfl⟩
  · exact .inr ⟨by assumption, rfl⟩

/-- All a POLL can do: the inactivity check, then the byte, then the response. -/
theorem execPoll_eq_next {now : Nat} {x : Option Byte} {s t : State} :
    execPoll now x s = .next t ↔
      ∃ u evs, pollByte now x (inactivityCheck now s).1 = .ok (u, evs) ∧
        t = respond .ok (.events ((inactivityCheck now s).2 ++ evs)) u := by
  unfold execPoll
  simp only [outcomeOf_eq_next, except_map_eq_ok, Prod.exists]
  exact exists_congr fun u => exists_congr fun evs => and_congr_right fun _ => eq_comm

/-! ### Space TX and the transmit path -/

theorem txLoad_eq_ok {bs : List Byte} {s t : State} :
    txLoad bs s = .ok t ↔
      bs.length ≤ s.cfg.frameBufSize ∧
        t = { s with txbuf := Memory.writeList s.txbuf 0 bs, txlen := bs.length } := by
  unfold txLoad; split <;> simp_all [eq_comm]

theorem txLoad_eq_error {bs : List Byte} {s : State} {e : Fault} :
    txLoad bs s = .error e ↔ s.cfg.frameBufSize < bs.length ∧ e = .txAddress := by
  unfold txLoad; split
  · simp only [reduceCtorEq, false_iff]; omega
  · simp only [Except.error.injEq]; constructor
    · rintro rfl; exact ⟨by omega, rfl⟩
    · rintro ⟨-, rfl⟩; rfl

/-- What a load leaves in space TX. -/
theorem txLoad_loaded {bs : List Byte} {s : State} (h : Memory.wf s.txbuf) :
    Loaded bs s { s with txbuf := Memory.writeList s.txbuf 0 bs, txlen := bs.length } := by
  intro a
  simpa using Memory.read_writeList bs h 0 a

theorem transmit_eq_ok {s t : State} :
    transmit s = .ok t ↔
      s.txlen ≤ s.cfg.frameBufSize ∧ t = emitTx (Memory.readList s.txbuf 0 s.txlen) s := by
  unfold transmit txRead; split <;> simp_all [Except.map, eq_comm]

theorem transmit_eq_error {s : State} {e : Fault} :
    transmit s = .error e ↔ s.cfg.frameBufSize < s.txlen ∧ e = .txAddress := by
  unfold transmit txRead; split
  · simp only [Except.map, reduceCtorEq, false_iff]; omega
  · simp only [Except.map, Except.error.injEq]; constructor
    · rintro rfl; exact ⟨by omega, rfl⟩
    · rintro ⟨-, rfl⟩; rfl

theorem wakeStart_eq_ok {now : Nat} {st : Bool} {s t : State} :
    wakeStart now st s = .ok t ↔
      (st = s.cfg.readyLevel ∧ s.txlen ≤ s.cfg.frameBufSize ∧
          t = respond .ok (.event .sent) (emitTx (Memory.readList s.txbuf 0 s.txlen) s)) ∨
        (st ≠ s.cfg.readyLevel ∧ t = respond .pending .none (enterWake now s)) := by
  unfold wakeStart
  split
  · simp only [except_map_eq_ok, transmit_eq_ok]
    constructor
    · rintro ⟨a, ⟨h, rfl⟩, rfl⟩; exact .inl ⟨by assumption, h, rfl⟩
    · rintro (⟨-, h, rfl⟩ | ⟨h, -⟩)
      · exact ⟨_, ⟨h, rfl⟩, rfl⟩
      · exact absurd (by assumption) h
  · simp_all [eq_comm]

theorem toggleStep_cases (now : Nat) (s : State) :
    (s.cfg.toggleMs ≤ elapsed s.cfg now s.tToggle ∧
        toggleStep now s = { setWakeOut now (!s.wakeOut) s with tToggle := now, tHold := now }) ∨
      (elapsed s.cfg now s.tToggle < s.cfg.toggleMs ∧ toggleStep now s = s) := by
  unfold toggleStep; split
  · exact .inl ⟨by assumption, rfl⟩
  · exact .inr ⟨by omega, rfl⟩

/-- All one iteration of the wake loop can do. -/
theorem wakeIteration_eq_ok {now : Nat} {st : Bool} {s t : State} :
    wakeIteration now st s = .ok t ↔
      (st = s.cfg.readyLevel ∧ s.cfg.debounceMs ≤ elapsed s.cfg now s.tHold ∧ wakeSuccess now s = .ok t) ∨
      (¬ (st = s.cfg.readyLevel ∧ s.cfg.debounceMs ≤ elapsed s.cfg now s.tHold) ∧
        ((s.cfg.wakeTimeoutMs ≤ elapsed s.cfg now s.tStart ∧
            t = respond .ok (.event .wakeTimeout) (endWake now (sampleHold now st s))) ∨
          (elapsed s.cfg now s.tStart < s.cfg.wakeTimeoutMs ∧
            t = respond .ok .none (toggleStep now (sampleHold now st s))))) := by
  unfold wakeIteration sampleHold
  by_cases hr : st = s.cfg.readyLevel
  · by_cases hd : s.cfg.debounceMs ≤ elapsed s.cfg now s.tHold
    · simp [hr, hd]
    · by_cases ht : s.cfg.wakeTimeoutMs ≤ elapsed s.cfg now s.tStart
      · simp [hr, hd, ht, eq_comm]
      · simp [hr, hd, ht, eq_comm]; omega
  · by_cases ht : s.cfg.wakeTimeoutMs ≤ elapsed s.cfg now s.tStart
    · simp [hr, ht, eq_comm]
    · simp [hr, ht, eq_comm]; omega

theorem wakeSuccess_eq_ok {now : Nat} {s t : State} :
    wakeSuccess now s = .ok t ↔
      s.txlen ≤ s.cfg.frameBufSize ∧
        t = respond .ok (.event .sent)
          { emitTx (Memory.readList s.txbuf 0 s.txlen) (setWakeOut now true s) with wst := .idle } := by
  unfold wakeSuccess
  simp only [except_map_eq_ok, transmit_eq_ok, setWakeOut_cfg, setWakeOut_txlen, setWakeOut_txbuf]
  constructor
  · rintro ⟨a, ⟨h, rfl⟩, rfl⟩; exact ⟨h, rfl⟩
  · rintro ⟨h, rfl⟩; exact ⟨_, ⟨h, rfl⟩, rfl⟩

/-! ### The step -/

/-- All a step can do, by its next offer. -/
theorem step_eq_next {s t : State} :
    step s = .next t ↔ (∃ i u, fetch s = .run i u ∧ exec i u = .next t) ∨ fetch s = .done t := by
  unfold step
  cases fetch s <;> simp [eq_comm]

end Sys2Proof.Machine
end

