-- ==== Sys2Proof/Laws/PerInstr.lean ====
section
/-! SUPPORT. Per-instruction family RowBits: the encoder presents every instruction under exactly the bits its row of
spec/opcode_table.json gives. -/

namespace Sys2Proof.Laws

open Sys2Proof

/-- The width and the match value of the instruction's row of spec/opcode_table.json. -/
def tableRow : Instr → Nat × Nat
  | .crc _ => (16, 0x0001)
  | .buildAck _ => (16, 0x0002)
  | .buildNoack _ => (16, 0x0102)
  | .validate _ => (16, 0x0003)
  | .sendAck _ _ _ => (16, 0x0004)
  | .sendNoack _ _ _ => (16, 0x0104)
  | .sendRaw _ _ _ => (16, 0x0005)
  | .poll _ _ => (16, 0x0006)
  | .tick _ _ => (16, 0x0007)
  | .reset _ => (16, 0x0008)
  | .cmdSetPairing _ _ _ _ => (8, 0x14)
  | .cmdOpenAdv _ _ _ _ => (8, 0x15)
  | .cmdCloseAdv _ _ => (8, 0x16)
  | .cmdKeyboard _ _ _ => (8, 0x21)
  | .cmdNkro _ _ _ _ => (8, 0x22)
  | .cmdConsumer _ _ _ => (8, 0x23)
  | .cmdSystem _ _ _ => (8, 0x24)
  | .cmdMouse _ _ _ _ _ _ _ => (8, 0x25)
  | .cmdLed _ => (8, 0x26)
  | .cmdRawHidOut _ _ _ => (8, 0x27)
  | .cmdRawHidIn _ => (8, 0x27)
  | .cmdLinkStatusA1 _ => (8, 0xA1)
  | .cmdLinkStatusA2 _ => (8, 0xA2)
  | .cmdLinkStatusA3 _ => (8, 0xA3)
  | .cmdLinkStatusA4 _ => (8, 0xA4)
  | .cmdLinkStatusA5 _ => (8, 0xA5)
  | .cmdLinkStatusA7 _ => (8, 0xA7)

/-- The bits of a form that the table numbers: the request word, or the command byte of a payload. -/
def rowBits : Encoded → Nat × Nat
  | .request w _ => (16, w.toNat)
  | .report payload _ _ => (8, (payload.headD 0).toNat)
  | .notify payload => (8, (payload.headD 0).toNat)

/-- The encoded form carries the bits of the instruction's row. -/
def RowBits.Statement (i : Instr) : Prop := rowBits (encode i) = tableRow i

theorem RowBits.crc (s : List Byte) :
    RowBits.Statement (.crc s) := rfl

theorem RowBits.buildAck (p : List Byte) :
    RowBits.Statement (.buildAck p) := rfl

theorem RowBits.buildNoack (p : List Byte) :
    RowBits.Statement (.buildNoack p) := rfl

theorem RowBits.validate (b : List Byte) :
    RowBits.Statement (.validate b) := rfl

theorem RowBits.sendAck (p : List Byte) (now : Nat) (st : Bool) :
    RowBits.Statement (.sendAck p now st) := rfl

theorem RowBits.sendNoack (p : List Byte) (now : Nat) (st : Bool) :
    RowBits.Statement (.sendNoack p now st) := rfl

theorem RowBits.sendRaw (bs : List Byte) (now : Nat) (st : Bool) :
    RowBits.Statement (.sendRaw bs now st) := rfl

theorem RowBits.poll (now : Nat) (x : Option Byte) :
    RowBits.Statement (.poll now x) := rfl

theorem RowBits.tick (now : Nat) (st : Bool) :
    RowBits.Statement (.tick now st) := rfl

theorem RowBits.reset (now : Nat) :
    RowBits.Statement (.reset now) := rfl

theorem RowBits.cmdSetPairing (host : Byte) (timeout : Byte) (now : Nat) (st : Bool) :
    RowBits.Statement (.cmdSetPairing host timeout now st) := rfl

theorem RowBits.cmdOpenAdv (host : Byte) (timeout : Byte) (now : Nat) (st : Bool) :
    RowBits.Statement (.cmdOpenAdv host timeout now st) := rfl

theorem RowBits.cmdCloseAdv (now : Nat) (st : Bool) :
    RowBits.Statement (.cmdCloseAdv now st) := rfl

theorem RowBits.cmdKeyboard (r : List Byte) (now : Nat) (st : Bool) :
    RowBits.Statement (.cmdKeyboard r now st) := rfl

theorem RowBits.cmdNkro (mods : Byte) (bitmap : List Byte) (now : Nat) (st : Bool) :
    RowBits.Statement (.cmdNkro mods bitmap now st) := rfl

theorem RowBits.cmdConsumer (u : Word) (now : Nat) (st : Bool) :
    RowBits.Statement (.cmdConsumer u now st) := rfl

theorem RowBits.cmdSystem (u : Word) (now : Nat) (st : Bool) :
    RowBits.Statement (.cmdSystem u now st) := rfl

theorem RowBits.cmdMouse (buttons : Byte) (x : Byte) (y : Byte) (v : Byte) (h : Byte) (now : Nat) (st : Bool) :
    RowBits.Statement (.cmdMouse buttons x y v h now st) := rfl

theorem RowBits.cmdLed (rest : List Byte) :
    RowBits.Statement (.cmdLed rest) := rfl

theorem RowBits.cmdRawHidOut (d : List Byte) (now : Nat) (st : Bool) :
    RowBits.Statement (.cmdRawHidOut d now st) := rfl

theorem RowBits.cmdRawHidIn (d : List Byte) :
    RowBits.Statement (.cmdRawHidIn d) := rfl

theorem RowBits.cmdLinkStatusA1 (rest : List Byte) :
    RowBits.Statement (.cmdLinkStatusA1 rest) := rfl

theorem RowBits.cmdLinkStatusA2 (rest : List Byte) :
    RowBits.Statement (.cmdLinkStatusA2 rest) := rfl

theorem RowBits.cmdLinkStatusA3 (rest : List Byte) :
    RowBits.Statement (.cmdLinkStatusA3 rest) := rfl

theorem RowBits.cmdLinkStatusA4 (rest : List Byte) :
    RowBits.Statement (.cmdLinkStatusA4 rest) := rfl

theorem RowBits.cmdLinkStatusA5 (rest : List Byte) :
    RowBits.Statement (.cmdLinkStatusA5 rest) := rfl

theorem RowBits.cmdLinkStatusA7 (rest : List Byte) :
    RowBits.Statement (.cmdLinkStatusA7 rest) := rfl

end Sys2Proof.Laws
end

