-- ==== Sys2Proof/Tests/Slice0.lean ====
section
/-! SUPPORT. The model's own tests. Expected values are the spec's: 95_test_vectors.md, or the example of the rule that a
test's comment names. A theorem named `witness_<Name>` shows a state and operands that meet all the hypotheses of
`Obligations.<Name>`. -/

namespace Sys2Proof.Tests

-- One theorem after the other: Lean then needs few threads at a time.
set_option Elab.async false

open Sys2Proof Sys2Proof.Machine

/-! ### Helpers -/

/-- The reference configuration (R8) with numbers for its three parameters that are OPEN. -/
def cfg : Config :=
  { Config.reference with defaultIntervalMs := 10, ledResponse := (.ack, [0x26, 0x00]), nkroBitmapBytes := 16 }

/-- The frame of vector E2: `build ack, [0xA3, 0x02]`. -/
def poorFrame : List Byte := [0xAA, 0x55, 0x00, 0x02, 0xA3, 0x02, 0x4C, 0xEC, 0x0D]

def idle : State := { State.reset with cfg := cfg }

def sawHeader1 : State := { idle with fst := .sawHeader1, rxidx := 1, rxbuf := [(0, 0xAA)] }

def sawHeader2 : State := { idle with fst := .sawHeader2, rxidx := 2, rxbuf := [(0, 0xAA), (1, 0x55)] }

def sawLength : State := { idle with fst := .sawLength, rxidx := 3, rxbuf := [(0, 0xAA), (1, 0x55)] }

/-- Five of nine bytes of `poorFrame` recorded. -/
def midFrame : State :=
  { idle with
    fst := .accumulating, rxidx := 5, rxexp := 9, rxbuf := [(0, 0xAA), (1, 0x55), (3, 0x02), (4, 0xA3)] }

/-- Eight of nine bytes of `poorFrame` recorded. -/
def lastByte : State :=
  { idle with
    fst := .accumulating, rxidx := 8, rxexp := 9,
    rxbuf := [(0, 0xAA), (1, 0x55), (3, 0x02), (4, 0xA3), (5, 0x02), (6, 0x4C), (7, 0xEC)] }

/-- `lastByte` with its CRC low byte wrong. -/
def lastByteBad : State :=
  { lastByte with rxbuf := [(0, 0xAA), (1, 0x55), (3, 0x02), (4, 0xA3), (5, 0x02), (6, 0x4D), (7, 0xEC)] }

/-- The discarding condition: nine of nine bytes, the last of them 0x0E. -/
def discarding : State :=
  { lastByte with
    rxidx := 9,
    rxbuf := [(0, 0xAA), (1, 0x55), (3, 0x02), (4, 0xA3), (5, 0x02), (6, 0x4C), (7, 0xEC), (8, 0x0E)] }

/-- A wake entered at 0 by `send_raw [0x01] @0 st=0`. -/
def waking : State := { idle with wst := .waking, txbuf := [(0, 0x01)], txlen := 1 }

def offered (o : Offer) (s : State) : State := { s with offers := [o] }

def request (w : Word) (d : PortData) : Offer := .request w d

/-- The state of a next outcome. -/
def nextOf (o : Host.Outcome State Fault Refusal) : Option State :=
  match o with
  | .next t => some t
  | _ => none

/-- The observation of a next outcome. -/
def traceOf (o : Host.Outcome State Fault Refusal) : List Obs := ((nextOf o).map (·.trace)).getD []

/-- What decodes, without the reason where nothing does. -/
def decoded (e : Encoded) : Option Instr := (decode cfg e).toOption

/-! ### WellFormed refuses an ill-formed term for each of its checks -/

theorem test_wf_time : wellFormed cfg (.tick (2 ^ 32) true) = false ∧ wellFormed cfg (.tick (2 ^ 32 - 1) true) = true := by
  decide
theorem test_wf_time_of_every_request :
    ([.sendAck [] (2 ^ 32) true, .sendNoack [] (2 ^ 32) true, .sendRaw [] (2 ^ 32) true, .poll (2 ^ 32) none,
      .reset (2 ^ 32), .cmdSetPairing 0 0 (2 ^ 32) true, .cmdOpenAdv 0 0 (2 ^ 32) true, .cmdCloseAdv (2 ^ 32) true,
      .cmdConsumer 0 (2 ^ 32) true, .cmdSystem 0 (2 ^ 32) true, .cmdMouse 0 0 0 0 0 (2 ^ 32) true,
      .cmdKeyboard (List.replicate 8 0) (2 ^ 32) true, .cmdNkro 0 (List.replicate 16 0) (2 ^ 32) true,
      .cmdRawHidOut [] (2 ^ 32) true].map (wellFormed cfg)).all (· = false) = true := by
  decide
theorem test_wf_keyboard_width : wellFormed cfg (.cmdKeyboard (List.replicate 7 0) 0 true) = false := by decide
theorem test_wf_nkro_width : wellFormed cfg (.cmdNkro 0 (List.replicate 15 0) 0 true) = false := by decide
theorem test_wf_raw_hid_length : wellFormed cfg (.cmdRawHidOut (List.replicate 121 0) 0 true) = false := by
  decide +kernel
theorem test_wf_inbound_length :
    ([.cmdLed (List.replicate 121 0), .cmdRawHidIn (List.replicate 121 0), .cmdLinkStatusA1 (List.replicate 121 0),
      .cmdLinkStatusA2 (List.replicate 121 0), .cmdLinkStatusA3 (List.replicate 121 0),
      .cmdLinkStatusA4 (List.replicate 121 0), .cmdLinkStatusA5 (List.replicate 121 0),
      .cmdLinkStatusA7 (List.replicate 121 0)].map (wellFormed cfg)).all (· = false) = true := by
  decide +kernel

/-! ### Decoding, from words and payloads written out from R60 to R62 and R110 to R117 -/

theorem test_decode_crc : decoded (.request 0x0001 ⟨[0x31], 0, false, none⟩) = some (.crc [0x31]) := by decide
theorem test_decode_build_ack : decoded (.request 0x0002 ⟨[0xA3, 0x02], 0, false, none⟩) = some (.buildAck [0xA3, 0x02]) := by
  decide
theorem test_decode_build_noack : decoded (.request 0x0102 ⟨[0x16], 0, false, none⟩) = some (.buildNoack [0x16]) := by
  decide
theorem test_decode_validate : decoded (.request 0x0003 ⟨[0xAA], 0, false, none⟩) = some (.validate [0xAA]) := by decide
theorem test_decode_send_ack : decoded (.request 0x0004 ⟨[0x01], 1000, true, none⟩) = some (.sendAck [0x01] 1000 true) := by
  decide
theorem test_decode_send_noack :
    decoded (.request 0x0104 ⟨[0x16, 0x00], 7, false, none⟩) = some (.sendNoack [0x16, 0x00] 7 false) := by
  decide
theorem test_decode_send_raw : decoded (.request 0x0005 ⟨[0x01], 3, false, none⟩) = some (.sendRaw [0x01] 3 false) := by
  decide
theorem test_decode_poll : decoded (.request 0x0006 ⟨[], 9, false, some 0xAA⟩) = some (.poll 9 (some 0xAA)) := by decide
theorem test_decode_tick : decoded (.request 0x0007 ⟨[], 1001, true, none⟩) = some (.tick 1001 true) := by decide
theorem test_decode_reset : decoded (.request 0x0008 ⟨[], 321, false, none⟩) = some (.reset 321) := by decide
theorem test_decode_set_pairing : decoded (.report [0x14, 0x01, 0x03] 5 true) = some (.cmdSetPairing 0x01 0x03 5 true) := by
  decide
theorem test_decode_open_adv : decoded (.report [0x15, 0x00, 0x06] 5 true) = some (.cmdOpenAdv 0x00 0x06 5 true) := by
  decide
theorem test_decode_close_adv : decoded (.report [0x16, 0x00] 5 false) = some (.cmdCloseAdv 5 false) := by decide
theorem test_decode_keyboard :
    decoded (.report [0x21, 0x00, 0x00, 0x04, 0x00, 0x00, 0x00, 0x00, 0x09] 5 true) =
      some (.cmdKeyboard [0x00, 0x00, 0x04, 0x00, 0x00, 0x00, 0x00, 0x09] 5 true) := by
  decide
/-- Sixteen bitmap bytes in the test configuration; one fewer and one more are refused. -/
theorem test_decode_nkro :
    decoded (.report (0x22 :: 0x02 :: List.replicate 16 0x0F) 5 true) =
        some (.cmdNkro 0x02 (List.replicate 16 0x0F) 5 true) ∧
      decoded (.report (0x22 :: 0x02 :: List.replicate 15 0x0F) 5 true) = none ∧
      decoded (.report (0x22 :: 0x02 :: List.replicate 17 0x0F) 5 true) = none := by
  decide
theorem test_decode_consumer : decoded (.report [0x23, 0xE9, 0x01] 5 true) = some (.cmdConsumer 0x01E9 5 true) := by decide
theorem test_decode_system : decoded (.report [0x24, 0x81, 0x02] 5 true) = some (.cmdSystem 0x0281 5 true) := by decide
theorem test_decode_mouse :
    decoded (.report [0x25, 0x01, 0xFB, 0xFF, 0x03, 0x00, 0x07, 0x08] 5 true) =
      some (.cmdMouse 0x01 0xFB 0x03 0x07 0x08 5 true) := by
  decide
theorem test_decode_led : decoded (.notify [0x26, 0x02]) = some (.cmdLed [0x02]) := by decide
theorem test_decode_raw_hid_out : decoded (.report [0x27, 0x01, 0x02] 5 true) = some (.cmdRawHidOut [0x01, 0x02] 5 true) := by
  decide
theorem test_decode_raw_hid_in : decoded (.notify [0x27, 0x01, 0x02]) = some (.cmdRawHidIn [0x01, 0x02]) := by decide
theorem test_decode_link_status_a1 : decoded (.notify [0xA1, 0x01]) = some (.cmdLinkStatusA1 [0x01]) := by decide
theorem test_decode_link_status_a2 : decoded (.notify [0xA2, 0x07]) = some (.cmdLinkStatusA2 [0x07]) := by decide
theorem test_decode_link_status_a3 : decoded (.notify [0xA3]) = some (.cmdLinkStatusA3 []) := by decide
theorem test_decode_link_status_a4 : decoded (.notify [0xA4, 0x02]) = some (.cmdLinkStatusA4 [0x02]) := by decide
theorem test_decode_link_status_a5 : decoded (.notify [0xA5, 0x00]) = some (.cmdLinkStatusA5 [0x00]) := by decide
theorem test_decode_link_status_a7 : decoded (.notify [0xA7, 0x00, 0x01]) = some (.cmdLinkStatusA7 [0x00, 0x01]) := by
  decide

/-- The illegal words of vector V-D. -/
theorem test_decode_refuses_illegal_words :
    ([0x0000, 0x0101, 0x0105, 0x0108, 0x0009, 0x00FF, 0x0200, 0x0202, 0x8001, 0xFFFF].map fun w =>
      decoded (.request w PortData.zero)) = List.replicate 10 none := by
  decide
/-- A payload that no encoder makes, and command bytes outside R60's columns. -/
theorem test_decode_refuses_bad_payloads :
    [decoded (.report [] 0 true), decoded (.report [0x26, 0x00] 0 true), decoded (.report [0x14, 0x01] 0 true),
      decoded (.report [0x16, 0x01] 0 true), decoded (.report [0x21, 0x00] 0 true), decoded (.report [0x22] 0 true),
      decoded (.report [0x25, 0x01, 0xFB, 0x00, 0x03, 0x00, 0x00, 0x00] 0 true), decoded (.notify []),
      decoded (.notify [0xA6, 0x02]), decoded (.notify [0x21])] = List.replicate 10 none := by
  decide

/-- One bit pattern of each kind through the host's entry. -/
theorem test_table_words :
    [decodeTableWord 16 0x0004, decodeTableWord 8 0x25, decodeTableWord 8 0x26, decodeTableWord 8 0x27,
      decodeTableWord 8 0xA4] =
    [some (.sendAck [] 0 false), some (.cmdMouse 0 0 0 0 0 0 false), some (.cmdLed [0]),
      some (.cmdRawHidOut [] 0 false), some (.cmdLinkStatusA4 [0])] := by
  decide
/-- The NKRO byte completed to its width, which is a free value: by the width's equality with itself. -/
theorem test_table_nkro :
    decodeTableWord 8 0x22 =
      some (.cmdNkro 0x00 (List.replicate Config.reference.nkroBitmapBytes 0x00) 0 false) := by
  simp [decodeTableWord, tableForm, tablePayload, zeroOperandBytes, decode, decodeReport, Config.sample,
    Nat.add_comm 1, List.replicate_succ]
/-- A placed word is the next thing a step does: RESET, an encoder's SEND, a delivered notification. -/
theorem test_placed_reset :
    nextOf (step (idle.withFetchWord 16 0x0008)) = some { idle with trace := [.response .ok .none] } := by
  decide +kernel
theorem test_placed_close_adv :
    (nextOf (step (State.reset.withFetchWord 8 0x16))).map (fun t => (t.wst, t.txlen, t.trace)) =
      some (.waking, 9, [.response .pending .none]) := by
  decide +kernel
theorem test_placed_link_status :
    (nextOf (step (State.reset.withFetchWord 8 0xA7))).map (fun t => (callsMade t.trace).length) = some 2 := by
  decide +kernel

/-! ### One step of each instruction -/

/-- R67 and V-C. -/
theorem test_crc_bit : crcBit cfg 0xFFFE = 0x7FFF ∧ crcBit cfg 0x7FFF = 0x9FFE ∧ crcBit cfg 0x8000 = 0x4000 := by
  decide
/-- R68 and V-C. -/
theorem test_crc_byte : crcByte cfg 0xFFFF 0x01 = 0x807E ∧ crcByte cfg 0xFFFF 0xAA = 0x3F3F := by decide +kernel
/-- V-C: the string 123456789. -/
theorem test_crc :
    traceOf (exec (.crc [0x31, 0x32, 0x33, 0x34, 0x35, 0x36, 0x37, 0x38, 0x39]) idle) =
      [.response .ok (.crc 0x4B37)] := by
  decide +kernel

/-- V-B. -/
theorem test_build_ack :
    (nextOf (exec (.buildAck [0xAA]) idle)).map (fun t => (t.txlen, t.trace)) =
      some (8, [.response .ok (.frame [0xAA, 0x55, 0x00, 0x01, 0xAA, 0xAC, 0x3B, 0x0D])]) := by
  decide +kernel
theorem test_build_ack_too_long :
    nextOf (exec (.buildAck (List.replicate 122 0)) idle) =
      some { idle with trace := [.response .payloadTooLong .none] } := by
  decide +kernel
/-- V-B. -/
theorem test_build_noack :
    traceOf (exec (.buildNoack [0x27, 0xAA, 0x55, 0x0D]) idle) =
      [.response .ok (.frame [0xAA, 0x55, 0x01, 0x04, 0x27, 0xAA, 0x55, 0x0D, 0xEB, 0x19, 0x0D])] := by
  decide +kernel
theorem test_build_noack_held : nextOf (exec (.buildNoack [0x01]) waking) = some { waking with trace := [.held] } := by
  decide
/-- V-V. -/
theorem test_validate :
    [[0xAA, 0x55, 0x07, 0x02, 0xA3, 0x02, 0x4D, 0x98, 0x0D], [0xAB, 0x55, 0x00, 0x02, 0xA3, 0x02, 0x00, 0x00, 0x0E],
      [0xAA, 0x55, 0x01, 0x02, 0xA3, 0x02, 0x4C, 0xEC, 0x0D], [0xAA, 0x55, 0x00, 0x02, 0xA3, 0x02, 0x4C, 0xEC, 0x0E],
      [0xAA, 0x55, 0x00, 0x02, 0xA3, 0x02, 0x4C, 0xEC]].map (fun b => traceOf (exec (.validate b) idle)) =
    [[.response .ok .none], [.response .headerMismatch .none], [.response .crcMismatch .none],
      [.response .terminatorMismatch .none], [.response .malformed .none]] := by
  decide +kernel
/-- E14. -/
theorem test_send_ack_ready :
    (nextOf (exec (.sendAck [0xA3, 0x02] 0 true) idle)).map (fun t => (t.wst, t.wakeOut, t.trace)) =
      some (.idle, true, [.tx poorFrame, .response .ok (.event .sent)]) := by
  decide +kernel
/-- E10. -/
theorem test_send_ack_asleep :
    (nextOf (exec (.sendAck [0x01] 1000 false) idle)).map (fun t => (t.wst, t.tStart, t.tToggle, t.tHold, t.trace)) =
      some (.waking, 1000, 1000, 1000, [.response .pending .none]) := by
  decide +kernel
/-- V-W16. -/
theorem test_send_noack :
    txOutput (traceOf (exec (.sendNoack [0x16, 0x00] 10 true) idle)) =
      [0xAA, 0x55, 0x01, 0x02, 0x16, 0x00, 0xBA, 0x41, 0x0D] := by
  decide +kernel
/-- V-W14. -/
theorem test_send_raw_empty :
    traceOf (exec (.sendRaw [] 1 true) idle) = [.tx [], .response .ok (.event .sent)] := by
  decide
theorem test_send_raw_asleep : nextOf (exec (.sendRaw [0x01] 0 false) idle) =
    some { waking with trace := [.response .pending .none] } := by
  decide
/-- V-P9: 1500 ms is not more than `INACT_MS`, 1501 ms is. -/
theorem test_poll_inactivity :
    [1500, 1501].map (fun now => traceOf (exec (.poll now none) sawHeader2)) =
      [[.response .ok (.events [])], [.response .ok (.events [.inactivityReset])]] := by
  decide
/-- V-P1, the ninth byte. -/
theorem test_poll_completes :
    nextOf (exec (.poll 8 (some 0x0D)) lastByte) =
      some { idle with
        tLastRx := 8, frames := [poorFrame],
        trace := [.frameOut poorFrame, .response .ok (.events [.frameValid])] } := by
  decide +kernel
/-- V-W5: the toggle at 20 restarts the hold. -/
theorem test_tick_toggle :
    nextOf (exec (.tick 20 true) { waking with tHold := 16 }) =
      some { waking with
        wakeOut := false, tToggle := 20, tHold := 20, trace := [.wakeOut 20 false, .response .ok .none] } := by
  decide
/-- V-W13: success is tested before the timeout. -/
theorem test_tick_success_first :
    nextOf (exec (.tick 500 true) { waking with tHold := 0 }) =
      some { waking with wst := .idle, trace := [.tx [0x01], .response .ok (.event .sent)] } := by
  decide
/-- V-R: RESET one millisecond after the toggle at 20. -/
theorem test_reset_aborts :
    nextOf (exec (.reset 21) { waking with wakeOut := false, tToggle := 20, tHold := 20 }) =
      some { idle with trace := [.wakeOut 21 true, .response .ok (.event .aborted)] } := by
  decide
/-- E13. -/
theorem test_set_pairing :
    txOutput (traceOf (exec (.cmdSetPairing 0x01 0x03 0 true) idle)) =
      [0xAA, 0x55, 0x01, 0x03, 0x14, 0x01, 0x03, 0x21, 0x1E, 0x0D] := by
  decide +kernel
/-- E13. -/
theorem test_open_adv :
    txOutput (traceOf (exec (.cmdOpenAdv 0x00 0x06 0 true) idle)) =
      [0xAA, 0x55, 0x01, 0x03, 0x15, 0x00, 0x06, 0xB1, 0x4D, 0x0D] := by
  decide +kernel
/-- E13. -/
theorem test_close_adv :
    txOutput (traceOf (exec (.cmdCloseAdv 0 true) idle)) = [0xAA, 0x55, 0x01, 0x02, 0x16, 0x00, 0xBA, 0x41, 0x0D] := by
  decide +kernel
/-- E13. -/
theorem test_keyboard :
    txOutput (traceOf (exec (.cmdKeyboard [0x00, 0x00, 0x04, 0x00, 0x00, 0x00, 0x00, 0x00] 0 true) idle)) =
      [0xAA, 0x55, 0x00, 0x09, 0x21, 0x00, 0x00, 0x04, 0x00, 0x00, 0x00, 0x00, 0x00, 0x12, 0x76, 0x0D] := by
  decide +kernel
/-- R111: the payload, by offset, of a call as the step runs it; L = 2 + 16. -/
theorem test_nkro :
    (fun f => (frameLen f, framePayload f))
        (txOutput (traceOf (step (offered (.report (0x22 :: 0x02 :: List.replicate 16 0x0F) 0 true) idle)))) =
      (18, 0x22 :: 0x02 :: List.replicate 16 0x0F) := by
  decide +kernel
/-- E13. -/
theorem test_consumer :
    txOutput (traceOf (exec (.cmdConsumer 0x00E9 0 true) idle)) =
      [0xAA, 0x55, 0x00, 0x03, 0x23, 0xE9, 0x00, 0xA3, 0x11, 0x0D] := by
  decide +kernel
/-- E13. -/
theorem test_system :
    txOutput (traceOf (exec (.cmdSystem 0x0081 0 true) idle)) =
      [0xAA, 0x55, 0x00, 0x03, 0x24, 0x81, 0x00, 0x3D, 0x10, 0x0D] := by
  decide +kernel
/-- E13: x = -5, y = 3. -/
theorem test_mouse :
    txOutput (traceOf (exec (.cmdMouse 0x01 0xFB 0x03 0x00 0x00 0 true) idle)) =
      [0xAA, 0x55, 0x00, 0x08, 0x25, 0x01, 0xFB, 0xFF, 0x03, 0x00, 0x00, 0x00, 0x5B, 0xEA, 0x0D] := by
  decide +kernel
/-- R106. -/
theorem test_led : nextOf (exec (.cmdLed [0x02]) idle) = some { idle with issued := [(.ack, [0x26, 0x00])] } := by
  decide
/-- E13. -/
theorem test_raw_hid_out :
    txOutput (traceOf (exec (.cmdRawHidOut [0x01, 0x02, 0x03] 0 true) idle)) =
      [0xAA, 0x55, 0x00, 0x04, 0x27, 0x01, 0x02, 0x03, 0x24, 0xDC, 0x0D] := by
  decide +kernel
/-- E12 and V-X. -/
theorem test_raw_hid_in :
    traceOf (exec (.cmdRawHidIn [0x01, 0x02, 0x03]) idle) = [.call (.rawHidReceive [0x01, 0x02, 0x03] 3)] ∧
      traceOf (exec (.cmdRawHidIn []) idle) = [.call (.rawHidReceive [] 0)] := by
  decide
/-- E11. -/
theorem test_link_status_a1 :
    traceOf (exec (.cmdLinkStatusA1 [0x01]) idle) = [.call (.setRetryCount 0), .call (.setReportIntervalMs 13)] := by
  decide
/-- E11. -/
theorem test_link_status_a2 : traceOf (exec (.cmdLinkStatusA2 [0x07]) idle) = [] := by decide
/-- E9 and V-X. -/
theorem test_link_status_a3 :
    traceOf (exec (.cmdLinkStatusA3 [0x02, 0xFF]) idle) = [.call (.setRetryCount 5)] ∧
      traceOf (exec (.cmdLinkStatusA3 []) idle) = [] := by
  decide
/-- E11. -/
theorem test_link_status_a4 : traceOf (exec (.cmdLinkStatusA4 [0x02]) idle) = [.call (.setRetryCount 5)] := by decide
/-- E11. -/
theorem test_link_status_a5 :
    traceOf (exec (.cmdLinkStatusA5 [0x00]) idle) = [.call (.setRetryCount 0), .call (.setReportIntervalMs 10)] := by
  decide
/-- E11. -/
theorem test_link_status_a7 :
    traceOf (exec (.cmdLinkStatusA7 [0x00]) idle) = [.call (.setRetryCount 0), .call (.setReportIntervalMs 10)] := by
  decide

/-! ### Hypotheses that are met -/

theorem inv_idle : Inv idle := inv_of_check (by decide)
theorem inv_sawHeader1 : Inv sawHeader1 := inv_of_check (by decide +kernel)
theorem inv_sawHeader2 : Inv sawHeader2 := inv_of_check (by decide +kernel)
theorem inv_sawLength : Inv sawLength := inv_of_check (by decide +kernel)
theorem inv_midFrame : Inv midFrame := inv_of_check (by decide +kernel)
theorem inv_lastByte : Inv lastByte := inv_of_check (by decide +kernel)
theorem inv_lastByteBad : Inv lastByteBad := inv_of_check (by decide +kernel)
theorem inv_discarding : Inv discarding := inv_of_check (by decide +kernel)
theorem inv_waking : Inv waking := inv_of_check (by decide +kernel)

theorem witness_DecodeOfEncodeIsTheInstruction :
    wellFormed cfg (.cmdMouse 0xFF 0x80 0x7F 0xFF 0x80 (2 ^ 32 - 1) true) = true ∧
      wellFormed cfg (.cmdNkro 0xFF (List.replicate 16 0xFF) 0 true) = true ∧
      wellFormed cfg (.cmdLed (List.replicate 120 0)) = true := by
  decide +kernel
theorem witness_DecodedFormsAreTheirEncodings :
    decode cfg (.request 0x0104 ⟨[0x16], 2 ^ 32, true, none⟩) = .ok (.sendNoack [0x16] 0 true) ∧
      decode cfg (.report [0x16, 0x00] (2 ^ 32) true) = .ok (.cmdCloseAdv 0 true) ∧
      decode cfg (.notify [0xA7]) = .ok (.cmdLinkStatusA7 []) :=
  ⟨rfl, rfl, rfl⟩
/-- Each way a word is illegal, at its boundary, and a legal word. -/
theorem witness_IllegalRequestWordsChangeNothing :
    reqOp 0x0000 = 0 ∧ reqOp 0x0009 = 9 ∧ reqRes 0x0201 = 1 ∧ (reqA 0x0101 = true ∧ reqOp 0x0101 = 1) ∧
      ¬ (reqOp 0x0108 = 0 ∨ 9 ≤ reqOp 0x0008 ∨ reqRes 0x0008 ≠ 0 ∨
        (reqA 0x0008 = true ∧ reqOp 0x0008 ≠ 2 ∧ reqOp 0x0008 ≠ 4)) := by
  decide
theorem witness_StepRunsTheDecodedRequest :
    decode idle.cfg (.request 0x0007 PortData.zero) = .ok (.tick 0 false) ∧
      decode idle.cfg (.report [0x27] 0 false) = .ok (.cmdRawHidOut [] 0 false) :=
  ⟨rfl, rfl⟩
theorem witness_StepRunsTheDispatchedCommand :
    ({ idle with frames := [poorFrame] } : State).frames = poorFrame :: [] ∧
      decode idle.cfg (.notify (framePayload poorFrame)) = .ok (.cmdLinkStatusA3 [0x02]) :=
  ⟨rfl, rfl⟩
theorem witness_PlacedWordIsTheNextInstruction :
    State.reset.cfg = Config.reference ∧ decodeTableWord 16 0x0008 = some (.reset 0) ∧
      decodeTableWord 8 0x14 = some (.cmdSetPairing 0 0 0 false) ∧ decodeTableWord 8 0x26 = some (.cmdLed [0]) :=
  ⟨rfl, rfl, rfl, rfl⟩
/-- Command byte 0xA6 (E12), and no command byte (V-X). -/
theorem witness_UnknownCommandsAreIgnored :
    (∀ cmd ∈ (framePayload [0xAA, 0x55, 0x00, 0x02, 0xA6, 0x02, 0x4F, 0xBC, 0x0D]).head?,
        cmd ∉ ([0x26, 0x27, 0xA1, 0xA2, 0xA3, 0xA4, 0xA5, 0xA7] : List Byte)) ∧
      framePayload [0xAA, 0x55, 0x00, 0x00, 0x31, 0xEC, 0x0D] = [] := by
  decide
theorem witness_CrcBitStep : Config.reference.crcPoly.getLsbD 15 = true := by decide
theorem witness_CrcLaws : Config.reference.crcPoly.getLsbD 15 = true ∧ (0x00 : Byte) ≠ 0x01 := by decide
theorem witness_BuiltFrameLayout : cfg.Wf ∧ (List.replicate 121 (0 : Byte)).length ≤ cfg.maxPayload := by
  decide +kernel
/-- One state per branch; the payload one byte over the maximum, and at it. -/
theorem witness_BuildRequestResult :
    idle.cfg.Wf ∧ Memory.wf idle.txbuf ∧ waking.wst = .waking ∧ Memory.wf waking.txbuf ∧ idle.wst ≠ .waking ∧
      idle.cfg.maxPayload < (List.replicate 122 (0 : Byte)).length ∧
      ¬ idle.cfg.maxPayload < (List.replicate 121 (0 : Byte)).length := by
  decide +kernel
theorem witness_BuiltFramesValidate : cfg.Wf ∧ ([] : List Byte).length ≤ cfg.maxPayload := by decide
/-- One changed byte per clause of the frame of E4. -/
theorem witness_CorruptedFramesAreDetected :
    cfg.Wf ∧ cfg.crcPoly.getLsbD 15 = true ∧ build cfg .ack [0xA3, 0x02] = poorFrame ∧
      ([(0, 0x55), (1, 0xAA), (2, 0x01), (3, 0x03), (4, 0xA4), (6, 0xB3), (7, 0x13), (8, 0xF2)].all
        fun q : Nat × Byte => decide (q.2 ≠ frameByte poorFrame q.1)) = true := by
  decide +kernel
theorem witness_PollInIdle : Inv idle ∧ idle.fst = .idle ∧ (0xAA : Byte) = idle.cfg.header1 ∧ (0xAB : Byte) ≠ idle.cfg.header1 :=
  ⟨inv_idle, by decide⟩
/-- The elapsed time at which no reset is due yet (V-P9), and a byte for each branch. -/
theorem witness_PollInSawHeader1 :
    Inv sawHeader1 ∧ sawHeader1.fst = .sawHeader1 ∧ ¬ inactive 1500 sawHeader1 ∧
      (0x55 : Byte) = sawHeader1.cfg.header2 ∧ (0xAA : Byte) = sawHeader1.cfg.header1 ∧
      (0xAA : Byte) ≠ sawHeader1.cfg.header2 ∧
      ((0x12 : Byte) ≠ sawHeader1.cfg.header2 ∧ (0x12 : Byte) ≠ sawHeader1.cfg.header1) :=
  ⟨inv_sawHeader1, by decide⟩
theorem witness_PollInSawHeader2 :
    Inv sawHeader2 ∧ sawHeader2.fst = .sawHeader2 ∧ ¬ inactive 1500 sawHeader2 ∧
      (0x01 : Byte) = sawHeader2.cfg.noackv ∧
      (¬ ((0xAA : Byte) = sawHeader2.cfg.ackv ∨ (0xAA : Byte) = sawHeader2.cfg.noackv) ∧
        (0xAA : Byte) = sawHeader2.cfg.header1) ∧
      (¬ ((0x07 : Byte) = sawHeader2.cfg.ackv ∨ (0x07 : Byte) = sawHeader2.cfg.noackv) ∧
        (0x07 : Byte) ≠ sawHeader2.cfg.header1) :=
  ⟨inv_sawHeader2, by decide⟩
theorem witness_PollInSawLength :
    Inv sawLength ∧ sawLength.fst = .sawLength ∧ ¬ inactive 1500 sawLength ∧
      (0x79 : Byte).toNat ≤ sawLength.cfg.maxPayload ∧ ¬ (0x7A : Byte).toNat ≤ sawLength.cfg.maxPayload ∧
      (0x7A : Byte) ≠ sawLength.cfg.header1 ∧ ¬ (0xAA : Byte).toNat ≤ sawLength.cfg.maxPayload ∧
      (0xAA : Byte) = sawLength.cfg.header1 :=
  ⟨inv_sawLength, by decide⟩
theorem witness_PollInAccumulating :
    (Inv midFrame ∧ midFrame.fst = .accumulating ∧ ¬ inactive 1500 midFrame ∧ midFrame.rxidx < midFrame.rxexp ∧
      ¬ (midFrame.rxidx + 1 = midFrame.rxexp ∧ (0x0D : Byte) = midFrame.cfg.terminator)) ∧
    (Inv lastByte ∧ lastByte.fst = .accumulating ∧ ¬ inactive 1500 lastByte ∧ lastByte.rxidx < lastByte.rxexp ∧
      ¬ (lastByte.rxidx + 1 = lastByte.rxexp ∧ (0x0E : Byte) = lastByte.cfg.terminator)) :=
  ⟨⟨inv_midFrame, by decide⟩, ⟨inv_lastByte, by decide⟩⟩
/-- A valid frame and one with a wrong CRC byte (V-P5). -/
theorem witness_PollCompletesTheFrame :
    (Inv lastByte ∧ lastByte.fst = .accumulating ∧ ¬ inactive 1500 lastByte ∧ lastByte.rxidx + 1 = lastByte.rxexp ∧
      (0x0D : Byte) = lastByte.cfg.terminator) ∧
    validate cfg (Memory.readList lastByte.rxbuf 0 8 ++ [0x0D]) = .ok ∧
    (Inv lastByteBad ∧ ¬ inactive 1500 lastByteBad) ∧
    validate cfg (Memory.readList lastByteBad.rxbuf 0 8 ++ [0x0D]) = .crcMismatch :=
  ⟨⟨inv_lastByte, by decide⟩, by decide +kernel, ⟨inv_lastByteBad, by decide⟩, by decide +kernel⟩
theorem witness_PollWhileDiscarding :
    Inv discarding ∧ discarding.fst = .accumulating ∧ ¬ inactive 1500 discarding ∧
      discarding.rxidx = discarding.rxexp ∧ (0xAA : Byte) = discarding.cfg.header1 ∧
      (0x0D : Byte) ≠ discarding.cfg.header1 :=
  ⟨inv_discarding, by decide⟩
theorem witness_PollInactivityReset :
    Inv sawHeader2 ∧ inactive 1501 sawHeader2 ∧ ¬ inactive 1500 sawHeader2 ∧ (0xAA : Byte) = sawHeader2.cfg.header1 ∧
      (0x00 : Byte) ≠ sawHeader2.cfg.header1 :=
  ⟨inv_sawHeader2, by decide⟩
theorem witness_PollAlwaysAnswersOk : Inv discarding := inv_discarding
/-- A 7-byte frame (V-P8) at one byte a millisecond, and with `INACT_MS` between two bytes. -/
theorem witness_BuiltFrameIsDeliveredOnce :
    Inv idle ∧ idle.fst = .idle ∧ ([] : List Byte).length ≤ idle.cfg.maxPayload ∧
      [0, 1500, 1501, 1502, 1503, 1504, 1505].length = 7 + ([] : List Byte).length ∧
      Prompt idle.cfg ([0, 1500, 1501, 1502, 1503, 1504, 1505].zip (build idle.cfg .ack [])) :=
  ⟨inv_idle, rfl, by decide, rfl, by
    have h : build idle.cfg .ack [] = [0xAA, 0x55, 0x00, 0x00, 0x31, 0xEC, 0x0D] := by decide +kernel
    rw [h]
    simp only [List.zip_cons_cons, List.zip_nil_right, Prompt]
    decide⟩
theorem witness_GarbageLeavesTheFramerIdle :
    Inv idle ∧ idle.fst = .idle ∧ ∀ q ∈ [(0, (0x00 : Byte)), (1, 0x55), (5000, 0x0D)], q.2 ≠ idle.cfg.header1 :=
  ⟨inv_idle, by decide⟩
theorem witness_SendRequestResult :
    Inv waking ∧ waking.wst = .waking ∧ Inv idle ∧ idle.wst ≠ .waking ∧
      idle.cfg.maxPayload < (List.replicate 122 (0 : Byte)).length ∧
      ¬ idle.cfg.maxPayload < (List.replicate 121 (0 : Byte)).length ∧ true = idle.cfg.readyLevel :=
  ⟨inv_waking, rfl, inv_idle, by decide +kernel⟩
theorem witness_SendRawRequestResult :
    Inv waking ∧ waking.wst = .waking ∧ Inv idle ∧ idle.wst ≠ .waking ∧
      idle.cfg.frameBufSize < (List.replicate 129 (0 : Byte)).length ∧
      ¬ idle.cfg.frameBufSize < (List.replicate 128 (0 : Byte)).length :=
  ⟨inv_waking, rfl, inv_idle, by decide +kernel⟩
/-- The boundary of each branch: debounce 5, timeout 100, toggle 20. -/
theorem witness_TickResult :
    idle.wst = .idle ∧ waking.wst ≠ .idle ∧ waking.txlen ≤ waking.cfg.frameBufSize ∧
      true = waking.cfg.readyLevel ∧ elapsed waking.cfg 5 waking.tHold = waking.cfg.debounceMs ∧
      elapsed waking.cfg 100 waking.tStart = waking.cfg.wakeTimeoutMs ∧
      elapsed waking.cfg 20 waking.tToggle = waking.cfg.toggleMs := by
  decide
theorem witness_BusyHold : waking.wst = .waking ∧ waking.txlen ≤ waking.cfg.frameBufSize := by decide
theorem witness_OnlyTickAndResetTouchARunningWake :
    waking.wst = .waking ∧ ∃ t, exec (.poll 1 (some 0xAA)) waking = .next t ∧ t.fst = .sawHeader1 :=
  ⟨rfl, _, rfl, rfl⟩
theorem witness_NeverReadyTimesOutAtTheWindow :
    waking.wst = .waking ∧ waking.tStart = 0 ∧ waking.tToggle = 0 ∧ waking.tHold = 0 ∧ waking.wakeOut = true ∧
      waking.cfg.toggleMs = 20 ∧ waking.cfg.wakeTimeoutMs = 100 ∧ 11 ≤ waking.cfg.timerWidth ∧
      (∀ j, 1 ≤ j → j ≤ 100 → (fun _ : Nat => false) j ≠ waking.cfg.readyLevel) :=
  ⟨rfl, rfl, rfl, rfl, rfl, rfl, rfl, by decide, fun _ _ _ => Bool.false_ne_true⟩
/-- Ready from 17 on, the case V-W5 whose hold the toggle at 20 restarts, and from 96 on, the latest success (V-W9). -/
theorem witness_ReadyModuleIsSentToAfterTheHold :
    (waking.wst = .waking ∧ waking.tStart = 0 ∧ waking.tToggle = 0 ∧ waking.tHold = 0 ∧ waking.wakeOut = true ∧
      waking.txlen ≤ waking.cfg.frameBufSize ∧ waking.cfg.toggleMs = 20 ∧ waking.cfg.debounceMs = 5 ∧
      waking.cfg.wakeTimeoutMs = 100 ∧ 11 ≤ waking.cfg.timerWidth) ∧
    (∀ j, 1 ≤ j → j ≤ 100 → (decide (17 ≤ j) = waking.cfg.readyLevel ↔ 17 ≤ j)) ∧
    (∃ j, 1 ≤ j ∧ j ≤ 4 ∧ 17 ≤ 20 * j ∧ 20 * j < 17 + 4 ∧ 25 = 20 * j + 5) ∧
    (∀ j, 1 ≤ j → j ≤ 100 → (decide (96 ≤ j) = waking.cfg.readyLevel ↔ 96 ≤ j)) ∧
    ((∀ j, 1 ≤ j → j ≤ 4 → ¬ (96 ≤ 20 * j ∧ 20 * j < 96 + 4)) ∧ 100 = 96 + 4) :=
  ⟨by decide, fun j _ _ => by simp [waking, idle, cfg, Config.reference],
    ⟨1, by decide⟩, fun j _ _ => by simp [waking, idle, cfg, Config.reference], fun j _ _ => by omega, rfl⟩
theorem witness_ReportEncodersSendTheirPayload :
    Inv idle ∧ idle.wst = .idle ∧ 9 ≤ idle.cfg.maxPayload ∧ (List.replicate 8 (0 : Byte)).length = 8 ∧
      (List.replicate 16 (0 : Byte)).length = idle.cfg.nkroBitmapBytes ∧
      (List.replicate 120 (0 : Byte)).length ≤ idle.cfg.maxPayload - 1 ∧ true = idle.cfg.readyLevel :=
  ⟨inv_idle, by decide +kernel⟩
theorem witness_ReportEncodersAreHeldDuringAWake : waking.wst = .waking := rfl
theorem witness_LedNotificationIssuesOneSend :
    ({ idle with issued := [(.ack, [0x26, 0x00])] } : State).issued = (.ack, [0x26, 0x00]) :: [] ∧
      ({ waking with issued := [(.noack, [])] } : State).issued = (.noack, []) :: [] ∧
      idle.wst = .idle ∧ waking.wst = .waking := by
  decide
/-- A list of three bytes, and an empty one (E12, V-X). -/
theorem witness_RawHidIsForwarded :
    ∀ f ∈ [[0xAA, 0x55, 0x01, 0x04, 0x27, 0x01, 0x02, 0x03, 0x25, 0x0D, 0x0D],
        [0xAA, 0x55, 0x00, 0x01, 0x27, 0x6C, 0x5E, 0x0D]],
      ({ idle with frames := [f] } : State).frames = f :: [] ∧ f.length = 7 + frameLen f ∧ 1 ≤ frameLen f ∧
        frameByte f 4 = 0x27 := by
  decide
/-- One frame for each sub-status of E11 and V-X, the last with none. -/
theorem witness_LinkStatusFrames :
    [[0xAA, 0x55, 0x00, 0x02, 0xA5, 0x00, 0xCE, 0x8D, 0x0D], [0xAA, 0x55, 0x00, 0x02, 0xA1, 0x01, 0x0D, 0x8D, 0x0D],
      poorFrame, [0xAA, 0x55, 0x00, 0x02, 0xA3, 0x03, 0x8D, 0x2C, 0x0D],
      [0xAA, 0x55, 0x00, 0x01, 0xA3, 0x6C, 0x3D, 0x0D]].all (fun f =>
        decide (({ idle with frames := [f] } : State).frames = f :: [] ∧ f.length = 7 + frameLen f ∧
          1 ≤ frameLen f ∧ frameByte f 4 ∈ ([0xA1, 0xA2, 0xA3, 0xA4, 0xA5, 0xA7] : List Byte))) = true := by
  decide
theorem witness_PoorLinkFrameSetsOnlyTheRetryCount :
    cfg.Wf ∧ ([] : List Byte).length + 2 ≤ cfg.maxPayload ∧
      ({ idle with frames := [poorFrame] } : State).frames = build cfg .ack (0xA3 :: 0x02 :: []) :: [] := by
  decide +kernel

/-- A POLL that completes a frame, offered on the request port. -/
def completing : State := offered (.request 0x0006 ⟨[], 8, false, some 0x0D⟩) lastByte

theorem inv_completing : Inv completing := inv_of_check (by decide +kernel)

theorem witness_InvKeptByEveryStep :
    Inv completing ∧ ∃ t, step completing = .next t ∧ t.frames = [poorFrame] :=
  ⟨inv_completing, by
    have h : (nextOf (step completing)).map (·.frames) = some [poorFrame] := by decide +kernel
    match hs : step completing with
    | .next t => exact ⟨t, rfl, by simpa [hs, nextOf] using h⟩
    | .fault e => simp [hs, nextOf] at h
    | .refused r => simp [hs, nextOf] at h⟩
theorem witness_NoStepFaults : Inv completing := inv_completing
/-- The same step shows the hypotheses of the three statements that need only a next state. -/
theorem witness_ConfigurationIsNeverWritten : ∃ t, step completing = .next t :=
  witness_InvKeptByEveryStep.2.imp fun _ h => h.1
theorem witness_ObservationOnlyGrows : ∃ t, step completing = .next t := witness_ConfigurationIsNeverWritten
theorem witness_OnlyTheTransmitBufferIsTransmitted :
    (∃ t, step completing = .next t) ∧
      txOutput (traceOf (step (offered (.request 0x0007 ⟨[], 5, true, none⟩) waking))) = [0x01] :=
  ⟨witness_ConfigurationIsNeverWritten, by decide +kernel⟩
theorem witness_OnlyValidFramesAreDelivered :
    Inv completing ∧ ∃ t, step completing = .next t ∧ framesOut t.trace ≠ framesOut completing.trace :=
  ⟨inv_completing, by
    have h : (nextOf (step completing)).map (fun t => framesOut t.trace) = some [poorFrame] := by decide +kernel
    match hs : step completing with
    | .next t =>
      refine ⟨t, rfl, ?_⟩
      have ht : framesOut t.trace = [poorFrame] := by simpa [hs, nextOf] using h
      rw [ht]
      exact List.cons_ne_nil _ _
    | .fault e => simp [hs, nextOf] at h
    | .refused r => simp [hs, nextOf] at h⟩
theorem witness_AgentsShareNoState :
    (∃ t, exec (.poll 0 (some 0xAA)) idle = .next t) ∧ ∃ t, exec (.tick 1 false) waking = .next t :=
  ⟨⟨_, rfl⟩, ⟨_, rfl⟩⟩
theorem witness_AgentsCommute :
    ∃ t u, exec (.poll 0 (some 0xAA)) waking = .next t ∧ exec (.tick 1 false) t = .next u := ⟨_, _, rfl, rfl⟩
theorem witness_FailuresWriteNothing :
    (∃ t, exec (.validate []) idle = .next t ∧ responses t.trace = responses idle.trace ++ [(.malformed, .none)]) ∧
      Code.malformed ≠ .ok ∧ Code.malformed ≠ .pending :=
  ⟨⟨_, rfl, rfl⟩, by decide⟩
/-- The width of the test configuration, and one byte off on either side. -/
theorem witness_NkroCallsHaveTheFixedWidth :
    idle.cfg.Wf ∧ (List.replicate 16 (0 : Byte)).length = idle.cfg.nkroBitmapBytes ∧
      (List.replicate 15 (0 : Byte)).length ≠ idle.cfg.nkroBitmapBytes ∧
      (List.replicate 17 (0 : Byte)).length ≠ idle.cfg.nkroBitmapBytes := by
  decide
theorem witness_WakePinIsHighWhenNoWakeRuns :
    Inv (offered (.request 0x0008 PortData.zero) waking) ∧ waking.cfg.wakeIdleLevel = true ∧
      ∃ t, step (offered (.request 0x0008 PortData.zero) waking) = .next t ∧ t.wst = .idle :=
  ⟨inv_of_check (by decide +kernel), rfl, _, rfl, rfl⟩

end Sys2Proof.Tests
end

/-! PROOFS. The statements on 00_scope.md: modular time (R10), the invariant at reset (R27, R39) and the observation,
which only grows (R16). -/

namespace Sys2Proof.Machine

open Sys2Proof

/-! ### Modular time (R10) -/

/-- The natural-number formula of `elapsed` adds whole turns of the counter to the difference, so that it never
subtracts below 0. -/
theorem elapsed_argument_eq (m now since : Nat) (hm : 0 < m) :
    ((now + (m - since % m) : Nat) : Int) = (now - since : Int) + m * (1 + since / m) := by
  have hlt : since % m < m := Nat.mod_lt since hm
  have hdiv : (m : Int) * (since / m) + since % m = since := Int.mul_ediv_add_emod since m
  push_cast [Nat.cast_sub hlt.le]
  linear_combination -hdiv

theorem elapsed_eq_emod (c : Config) (now since : Nat) :
    (elapsed c now since : Int) = (now - since : Int) % (2 ^ c.timerWidth : Int) := by
  have harg := elapsed_argument_eq (2 ^ c.timerWidth) now since (Nat.two_pow_pos _)
  calc (elapsed c now since : Int)
      = ((now + (2 ^ c.timerWidth - since % 2 ^ c.timerWidth) : Nat) : Int) % (2 ^ c.timerWidth : Nat) :=
        Int.natCast_emod _ _
    _ = ((now - since : Int) + (2 ^ c.timerWidth : Nat) * (1 + since / (2 ^ c.timerWidth : Nat))) %
          (2 ^ c.timerWidth : Nat) := by rw [harg]
    _ = (now - since : Int) % (2 ^ c.timerWidth : Nat) := Int.add_mul_emod_self_left _ _ _
    _ = (now - since : Int) % (2 ^ c.timerWidth : Int) := by push_cast; rfl

/-- Settles O57: the formula of `elapsed` and the difference differ by whole turns of the counter. -/
theorem elapsedTimeIsModular : Obligations.ElapsedTimeIsModular := elapsed_eq_emod

/-! ### The state after reset (R27, R39) -/

/-- The reference values meet R8's constraints, whatever the free values are: the bound on the open
`NKRO_BITMAP_BYTES` is in its type (log entry 2). -/
theorem reference_wf : Config.reference.Wf := by
  have hnkro : Config.openNkroBitmapBytes.val < 120 := Config.openNkroBitmapBytes.isLt
  refine ⟨by decide, by decide, by decide, ?_⟩
  show 2 + Config.openNkroBitmapBytes.val ≤ 121
  omega

theorem framerInv_reset : FramerInv State.reset where
  clean _ _ := rfl
  idle _ := ⟨rfl, rfl⟩
  header _ := rfl
  sawHeader1 := nofun
  sawHeader2 := nofun
  sawLength := nofun
  accumulating := nofun

theorem headersKept_reset : HeadersKept State.reset := ⟨fun h => absurd rfl h, nofun⟩

theorem memoryInv_reset : MemoryInv State.reset := ⟨Memory.empty_wf, Memory.empty_wf, nofun, nofun⟩

theorem timeInv_reset : TimeInv State.reset := by
  have hpos : 0 < 2 ^ State.reset.cfg.timerWidth := Nat.two_pow_pos _
  exact ⟨hpos, hpos, hpos, hpos⟩

/-- Settles O46, part by part of the invariant: both buffers are empty, both sequencers idle with the pin high, and
every count and time is 0. -/
theorem invAtReset : Obligations.InvAtReset where
  cfg := reference_wf
  framer := framerInv_reset
  headers := headersKept_reset
  wakePin _ := rfl
  memory := memoryInv_reset
  txLen := Nat.zero_le _
  time := timeInv_reset
  frames := nofun

/-! ### The observation only grows (R16)

`s.trace <+: t.trace` says that the observation in `t` is the one in `s` with something appended. Each operation is
given it once; operations that observe nothing are given the equation of the two observations. -/

/-! #### The framer -/

theorem record_trace {b : Byte} {s t : State} (h : record b s = .ok t) : t.trace = s.trace := by
  obtain ⟨-, rfl⟩ := record_eq_ok.1 h
  rfl

/-- A byte that is recorded and then changes elements other than the trace, as in R83 to R85. -/
theorem record_map_trace {b : Byte} {f : State → State} {s t : State} (h : (record b s).map f = .ok t)
    (hf : ∀ u, (f u).trace = u.trace) : t.trace = s.trace := by
  obtain ⟨u, hu, rfl⟩ := except_map_eq_ok.1 h
  rw [hf, record_trace hu]

theorem restart_trace {b : Byte} {s t : State} (h : restart b s = .ok t) : t.trace = s.trace := by
  obtain ⟨-, rfl⟩ := restart_eq_ok.1 h
  rfl

theorem consumeIdle_trace {b : Byte} {s t : State} (h : consumeIdle b s = .ok t) : t.trace = s.trace := by
  unfold consumeIdle at h
  split at h
  · exact restart_trace h
  · cases h; rfl

theorem consumeSawHeader1_trace {b : Byte} {s t : State} (h : consumeSawHeader1 b s = .ok t) :
    t.trace = s.trace := by
  unfold consumeSawHeader1 at h
  split at h
  · exact record_map_trace h fun _ => rfl
  · split at h
    · exact restart_trace h
    · cases h; rfl

theorem consumeSawHeader2_trace {b : Byte} {s t : State} (h : consumeSawHeader2 b s = .ok t) :
    t.trace = s.trace := by
  unfold consumeSawHeader2 at h
  split at h
  · exact record_map_trace h fun _ => rfl
  · split at h
    · exact restart_trace h
    · cases h; rfl

theorem consumeSawLength_trace {b : Byte} {s t : State} (h : consumeSawLength b s = .ok t) :
    t.trace = s.trace := by
  unfold consumeSawLength at h
  split at h
  · exact record_map_trace h fun _ => rfl
  · split at h
    · exact restart_trace h
    · cases h; rfl

theorem noEvent_trace_grows {s : State} {r : Except Fault State} {p : State × List Code}
    (hr : ∀ {t}, r = .ok t → t.trace = s.trace) (h : noEvent r = .ok p) : s.trace <+: p.1.trace := by
  obtain ⟨t, ht, rfl⟩ := noEvent_eq_ok.1 h
  rw [hr ht]

/-- Completion observes the frame it delivers, if it delivers one (R88). -/
theorem complete_trace_grows {s : State} {r : State × List Code} (h : complete s = .ok r) :
    s.trace <+: r.1.trace := by
  obtain ⟨-, rfl⟩ := complete_eq_ok.1 h
  split <;> simp

theorem consumeAccumulating_trace_grows {b : Byte} {s : State} {r : State × List Code}
    (h : consumeAccumulating b s = .ok r) : s.trace <+: r.1.trace := by
  unfold consumeAccumulating at h
  split at h
  case isTrue =>
    cases hrec : record b s with
    | error e => simp [hrec] at h
    | ok t =>
      rw [← record_trace hrec]
      simp only [hrec] at h
      split at h
      · exact complete_trace_grows h
      · cases h; exact List.prefix_rfl
  case isFalse =>
    -- a byte that is discarded is treated as a byte in Idle (R87)
    exact noEvent_trace_grows (r := consumeIdle b s) consumeIdle_trace h

theorem consume_trace_grows {b : Byte} {s : State} {r : State × List Code} (h : consume b s = .ok r) :
    s.trace <+: r.1.trace := by
  unfold consume at h
  cases hfst : s.fst <;> rw [hfst] at h
  case idle => exact noEvent_trace_grows consumeIdle_trace h
  case sawHeader1 => exact noEvent_trace_grows consumeSawHeader1_trace h
  case sawHeader2 => exact noEvent_trace_grows consumeSawHeader2_trace h
  case sawLength => exact noEvent_trace_grows consumeSawLength_trace h
  case accumulating => exact consumeAccumulating_trace_grows h

@[simp] theorem inactivityCheck_trace (now : Nat) (s : State) : (inactivityCheck now s).1.trace = s.trace := by
  obtain ⟨-, h⟩ | ⟨-, h⟩ := inactivityCheck_cases now s <;> simp [h]

theorem pollByte_trace_grows {now : Nat} {x : Option Byte} {s : State} {r : State × List Code}
    (h : pollByte now x s = .ok r) : s.trace <+: r.1.trace := by
  cases x with
  | none => cases h; exact List.prefix_rfl
  | some b => exact consume_trace_grows (s := { s with tLastRx := now }) h

theorem execPoll_trace_grows {now : Nat} {x : Option Byte} {s t : State} (h : execPoll now x s = .next t) :
    s.trace <+: t.trace := by
  obtain ⟨u, evs, hu, rfl⟩ := execPoll_eq_next.1 h
  have hbyte : s.trace <+: u.trace := by simpa using pollByte_trace_grows hu
  exact hbyte.trans (List.prefix_append _ _)

/-! #### The transmit path -/

theorem setWakeOut_trace_grows (now : Nat) (level : Bool) (s : State) :
    s.trace <+: (setWakeOut now level s).trace := by
  rw [setWakeOut_trace]
  split <;> simp

theorem txLoad_trace {bs : List Byte} {s t : State} (h : txLoad bs s = .ok t) : t.trace = s.trace := by
  obtain ⟨-, rfl⟩ := txLoad_eq_ok.1 h
  rfl

theorem wakeStart_trace_grows {now : Nat} {st : Bool} {s t : State} (h : wakeStart now st s = .ok t) :
    s.trace <+: t.trace := by
  obtain ⟨-, -, rfl⟩ | ⟨-, rfl⟩ := wakeStart_eq_ok.1 h
  · simp
  · exact (setWakeOut_trace_grows now true s).trans (List.prefix_append _ _)

/-- The load and the wake start that SEND and SEND_RAW share. -/
theorem load_wakeStart_trace_grows {bs : List Byte} {now : Nat} {st : Bool} {s t : State}
    (h : outcomeOf ((txLoad bs s).bind (wakeStart now st)) = .next t) : s.trace <+: t.trace := by
  obtain ⟨u, hload, hwake⟩ := except_bind_eq_ok.1 (outcomeOf_eq_next.1 h)
  rw [← txLoad_trace hload]
  exact wakeStart_trace_grows hwake

theorem sendRequest_trace_grows {a : AckSel} {p : List Byte} {now : Nat} {st : Bool} {s t : State}
    (h : sendRequest a p now st s = .next t) : s.trace <+: t.trace := by
  unfold sendRequest at h
  split at h
  · cases h; simp
  · split at h
    · cases h; simp
    · exact load_wakeStart_trace_grows h

theorem execSendRaw_trace_grows {bs : List Byte} {now : Nat} {st : Bool} {s t : State}
    (h : execSendRaw bs now st s = .next t) : s.trace <+: t.trace := by
  unfold execSendRaw at h
  split at h
  · cases h; simp
  · split at h
    · cases h; simp
    · exact load_wakeStart_trace_grows h

theorem buildRequest_trace_grows {a : AckSel} {p : List Byte} {s t : State}
    (h : buildRequest a p s = .next t) : s.trace <+: t.trace := by
  unfold buildRequest at h
  split at h
  · cases h; simp
  · split at h
    · cases h; simp
    · obtain ⟨u, hload, rfl⟩ := except_map_eq_ok.1 (outcomeOf_eq_next.1 h)
      simp [txLoad_trace hload]

theorem toggleStep_trace_grows (now : Nat) (s : State) : s.trace <+: (toggleStep now s).trace := by
  obtain ⟨-, h⟩ | ⟨-, h⟩ := toggleStep_cases now s
  · rw [h]; exact setWakeOut_trace_grows now _ s
  · rw [h]

@[simp] theorem sampleHold_trace (now : Nat) (st : Bool) (s : State) : (sampleHold now st s).trace = s.trace := by
  unfold sampleHold
  split <;> rfl

theorem wakeSuccess_trace_grows {now : Nat} {s t : State} (h : wakeSuccess now s = .ok t) :
    s.trace <+: t.trace := by
  obtain ⟨-, rfl⟩ := wakeSuccess_eq_ok.1 h
  have hpin := setWakeOut_trace_grows now true s
  exact (hpin.trans (List.prefix_append _ _)).trans (List.prefix_append _ _)

theorem wakeIteration_trace_grows {now : Nat} {st : Bool} {s t : State} (h : wakeIteration now st s = .ok t) :
    s.trace <+: t.trace := by
  obtain ⟨-, -, hsuccess⟩ | ⟨-, ⟨-, rfl⟩ | ⟨-, rfl⟩⟩ := wakeIteration_eq_ok.1 h
  · exact wakeSuccess_trace_grows hsuccess
  · have hpin := setWakeOut_trace_grows now true (sampleHold now st s)
    rw [sampleHold_trace] at hpin
    exact hpin.trans (List.prefix_append _ _)
  · have htoggle := toggleStep_trace_grows now (sampleHold now st s)
    rw [sampleHold_trace] at htoggle
    exact htoggle.trans (List.prefix_append _ _)

theorem execTick_trace_grows {now : Nat} {st : Bool} {s t : State} (h : execTick now st s = .next t) :
    s.trace <+: t.trace := by
  unfold execTick at h
  split at h
  · cases h; simp
  · exact wakeIteration_trace_grows (outcomeOf_eq_next.1 h)

theorem execReset_trace_grows {now : Nat} {s t : State} (h : execReset now s = .next t) :
    s.trace <+: t.trace := by
  cases h
  exact (setWakeOut_trace_grows now true (resetState s)).trans (List.prefix_append _ _)

/-! #### The dispatcher -/

theorem linkStatus_trace_grows (rest : List Byte) (s : State) : s.trace <+: (linkStatus rest s).trace := by
  unfold linkStatus
  cases rest with
  | nil => exact List.prefix_rfl
  | cons sub _ =>
    dsimp only
    split_ifs
    · simp [linkHealthy]
    · simp [linkDegraded]
    · simp [linkPoor]
    · exact List.prefix_rfl

/-! #### The step -/

/-- Every instruction that answers a next state keeps what has been observed before it. -/
theorem exec_trace_grows {i : Instr} {s t : State} (h : exec i s = .next t) : s.trace <+: t.trace := by
  cases i with
  | crc | validate => cases h; exact List.prefix_append _ _
  | buildAck | buildNoack => exact buildRequest_trace_grows h
  | sendAck | sendNoack => exact sendRequest_trace_grows h
  | sendRaw => exact execSendRaw_trace_grows h
  | poll => exact execPoll_trace_grows h
  | tick => exact execTick_trace_grows h
  | reset => exact execReset_trace_grows h
  | cmdSetPairing | cmdOpenAdv | cmdCloseAdv | cmdKeyboard | cmdNkro | cmdConsumer | cmdSystem | cmdMouse
  | cmdRawHidOut => exact sendRequest_trace_grows h
  | cmdLed => cases h; exact List.prefix_rfl
  | cmdRawHidIn => cases h; exact List.prefix_append _ _
  | cmdLinkStatusA1 rest | cmdLinkStatusA2 rest | cmdLinkStatusA3 rest | cmdLinkStatusA4 rest
  | cmdLinkStatusA5 rest | cmdLinkStatusA7 rest => cases h; exact linkStatus_trace_grows rest s

/-- What a fetch answers with a state leaves the observation of `s` in place. -/
def Fetched.TraceGrows (s : State) : Fetched → Prop
  | .run _ u => s.trace <+: u.trace
  | .done t => s.trace <+: t.trace
  | .refuse _ => True

theorem fetchRequest_trace_grows (w : Word) (d : PortData) (s : State) :
    (fetchRequest w d s).TraceGrows s := by
  unfold fetchRequest
  split
  · exact List.prefix_rfl
  · exact List.prefix_append _ _

theorem fetchReport_trace_grows (payload : List Byte) (now : Nat) (st : Bool) (s : State) :
    (fetchReport payload now st s).TraceGrows s := by
  unfold fetchReport
  split
  · exact List.prefix_rfl
  · trivial

theorem fetchDispatch_trace_grows (s : State) : (fetchDispatch s).TraceGrows s := by
  unfold fetchDispatch
  split
  · exact List.prefix_rfl
  · split <;> exact List.prefix_rfl

theorem fetchIssued_trace_grows (now : Nat) (st : Bool) (s : State) : (fetchIssued now st s).TraceGrows s := by
  unfold fetchIssued
  split
  · exact List.prefix_rfl
  · show s.trace <+: State.trace (if _ then _ else _)
    split <;> exact List.prefix_rfl

/-- Taking an offer off the schedule observes nothing; the response to an illegal word is appended (R63). -/
theorem fetch_trace_grows (s : State) : (fetch s).TraceGrows s := by
  unfold fetch
  split
  · exact List.prefix_rfl
  case h_2 w d rest _ => exact fetchRequest_trace_grows w d { s with offers := rest }
  case h_3 payload now st rest _ => exact fetchReport_trace_grows payload now st { s with offers := rest }
  case h_4 rest _ => exact fetchDispatch_trace_grows { s with offers := rest }
  case h_5 now st rest _ => exact fetchIssued_trace_grows now st { s with offers := rest }

theorem step_trace_grows {s t : State} (h : step s = .next t) : s.trace <+: t.trace := by
  have hfetch := fetch_trace_grows s
  obtain ⟨i, u, hrun, hexec⟩ | hdone := step_eq_next.1 h
  · rw [hrun] at hfetch
    exact List.IsPrefix.trans hfetch (exec_trace_grows hexec)
  · rwa [hdone] at hfetch

/-- Settles O52: the fetch and the instruction it runs both only append to the observation. -/
theorem observationOnlyGrows : Obligations.ObservationOnlyGrows := by
  intro s t h
  obtain ⟨new, hnew⟩ := step_trace_grows h
  exact ⟨new, hnew.symm⟩

end Sys2Proof.Machine

/-! PROOFS. The statements on 10_state.md: what each instruction can do to the state, the invariant of the block, which
every step keeps (R27, R29, R30, R36, R41, R42), and the frame-out port and the TX byte output (R35, R36, R93). -/

namespace Sys2Proof.Machine

open Sys2Proof

/-! ### The output ports of an observation (R35, R36) -/

@[simp] theorem txOutput_append (a b : List Obs) : txOutput (a ++ b) = txOutput a ++ txOutput b :=
  List.flatMap_append

@[simp] theorem framesOut_append (a b : List Obs) : framesOut (a ++ b) = framesOut a ++ framesOut b :=
  List.filterMap_append

@[simp] theorem txOutput_nil : txOutput [] = [] := rfl

@[simp] theorem txOutput_tx (bs : List Byte) (tr : List Obs) : txOutput (.tx bs :: tr) = bs ++ txOutput tr := rfl

@[simp] theorem txOutput_response (c : Code) (d : Data) (tr : List Obs) :
    txOutput (.response c d :: tr) = txOutput tr := rfl

@[simp] theorem txOutput_frameOut (f : List Byte) (tr : List Obs) : txOutput (.frameOut f :: tr) = txOutput tr := rfl

@[simp] theorem framesOut_nil : framesOut [] = [] := rfl

@[simp] theorem framesOut_tx (bs : List Byte) (tr : List Obs) : framesOut (.tx bs :: tr) = framesOut tr := rfl

@[simp] theorem framesOut_response (c : Code) (d : Data) (tr : List Obs) :
    framesOut (.response c d :: tr) = framesOut tr := rfl

@[simp] theorem framesOut_frameOut (f : List Byte) (tr : List Obs) :
    framesOut (.frameOut f :: tr) = f :: framesOut tr := rfl

@[simp] theorem setWakeOut_txOutput (now : Nat) (level : Bool) (s : State) :
    txOutput (setWakeOut now level s).trace = txOutput s.trace := by
  rw [setWakeOut_trace]
  split
  · rfl
  · rw [txOutput_append]; exact List.append_nil _

@[simp] theorem setWakeOut_framesOut (now : Nat) (level : Bool) (s : State) :
    framesOut (setWakeOut now level s).trace = framesOut s.trace := by
  rw [setWakeOut_trace]
  split
  · rfl
  · rw [framesOut_append]; exact List.append_nil _

/-! ### The operands an instruction carries -/

/-- The value of the time input that an instruction carries (R32, R62). -/
def timeOperand : Instr → Option Nat
  | .sendAck _ now _ | .sendNoack _ now _ | .sendRaw _ now _ | .poll now _ | .tick now _ | .reset now
  | .cmdSetPairing _ _ now _ | .cmdOpenAdv _ _ now _ | .cmdCloseAdv now _ | .cmdKeyboard _ now _
  | .cmdNkro _ _ now _ | .cmdConsumer _ now _ | .cmdSystem _ now _ | .cmdMouse _ _ _ _ _ now _
  | .cmdRawHidOut _ now _ => some now
  | _ => none

/-- The received byte that an instruction carries: only a POLL has one (R34, R62). -/
def rxByteOperand : Instr → Option Byte
  | .poll _ x => x
  | _ => none

/-- The time an instruction carries, if it carries one, fits the time input (R32). -/
def TimeFits (c : Config) (i : Instr) : Prop := ∀ now, timeOperand i = some now → now < 2 ^ c.timerWidth

theorem timeFits_of_none {c : Config} {i : Instr} (h : timeOperand i = none) : TimeFits c i := by
  simp [TimeFits, h]

/-- The decoder reduces every time to the width of the time input (log entry 5). -/
theorem timeFits_of_sample {c : Config} {i : Instr} {now : Nat} (h : timeOperand i = some (c.sample now)) :
    TimeFits c i := by
  intro t ht
  obtain rfl : c.sample now = t := Option.some.inj (h.symm.trans ht)
  exact Nat.mod_lt _ (Nat.two_pow_pos _)

theorem decodeRequest_operands {c : Config} {w : Word} {d : PortData} {i : Instr}
    (h : decodeRequest c w d = .ok i) :
    (timeOperand i = none ∨ timeOperand i = some (c.sample d.now)) ∧
      ∀ b, rxByteOperand i = some b → reqOp w = 0x06 ∧ d.rxByte = some b := by
  unfold decodeRequest at h
  split_ifs at h
  split at h <;> cases h <;> simp_all [timeOperand, rxByteOperand]

theorem decodeReport_operands {c : Config} {p : List Byte} {now : Nat} {st : Bool} {i : Instr}
    (h : decodeReport c p now st = .ok i) :
    timeOperand i = some (c.sample now) ∧ rxByteOperand i = none := by
  unfold decodeReport at h
  split at h
  case h_1 => cases h
  case h_2 cmd rest =>
    dsimp only at h
    -- the command byte, then the layout of its payload
    repeat' split at h
    all_goals cases h
    all_goals exact ⟨rfl, rfl⟩

theorem decodeNotify_operands {p : List Byte} {i : Instr} (h : decodeNotify p = .ok i) :
    timeOperand i = none ∧ rxByteOperand i = none := by
  unfold decodeNotify at h
  split at h
  case h_1 => cases h
  case h_2 cmd rest => split at h <;> cases h <;> exact ⟨rfl, rfl⟩

theorem sendInstr_operands (c : Config) (p : AckSel × List Byte) (now : Nat) (st : Bool) :
    timeOperand (sendInstr c p now st) = some (c.sample now) ∧ rxByteOperand (sendInstr c p now st) = none := by
  obtain ⟨a, q⟩ := p
  cases a <;> exact ⟨rfl, rfl⟩

/-! ### What a fetch can answer (R37, R46) -/

/-- `u` is `s` after an offer, with what it takes from a queue, is taken: the configuration, the two agents' elements
and the observation are as they were, and no frame joins the dispatcher's queue. -/
def Dequeued (s u : State) : Prop :=
  ∃ offers frames issued, frames <:+ s.frames ∧ u = { s with offers := offers, frames := frames, issued := issued }

/-- `t` is `s` after observing `new`, no byte on the TX byte output and no frame on the frame-out port, and at most
issuing SENDs. -/
def Noted (s t : State) : Prop :=
  ∃ issued new, txOutput new = [] ∧ framesOut new = [] ∧ t = { s with issued := issued, trace := s.trace ++ new }

theorem Noted.refl (s : State) : Noted s s := ⟨s.issued, [], rfl, rfl, by simp⟩

theorem noted_respond (c : Code) (d : Data) (s : State) : Noted s (respond c d s) :=
  ⟨s.issued, [.response c d], rfl, rfl, rfl⟩

theorem noted_hold (s : State) : Noted s (hold s) := ⟨s.issued, [.held], rfl, rfl, rfl⟩

theorem noted_emitCall (c : Call) (s : State) : Noted s (emitCall c s) := ⟨s.issued, [.call c], rfl, rfl, rfl⟩

theorem Noted.trans {s t u : State} (h : Noted s t) (h' : Noted t u) : Noted s u := by
  obtain ⟨_, new, htx, hout, rfl⟩ := h
  obtain ⟨issued, new', htx', hout', rfl⟩ := h'
  exact ⟨issued, new ++ new', by simp [htx, htx'], by simp [hout, hout'], by simp⟩

/-- Where the instruction that a fetch from `s` runs comes from. -/
inductive Source (s : State) (i : Instr) : Prop
  | request (w : Word) (d : PortData) (rest : List Offer) (hoffer : s.offers = .request w d :: rest)
      (hdecode : decodeRequest s.cfg w d = .ok i)
  | report (p : List Byte) (now : Nat) (st : Bool) (hdecode : decodeReport s.cfg p now st = .ok i)
  | notify (p : List Byte) (hdecode : decodeNotify p = .ok i)
  | issued (p : AckSel × List Byte) (now : Nat) (st : Bool) (hsend : i = sendInstr s.cfg p now st)

theorem Source.timeFits {s : State} {i : Instr} (h : Source s i) : TimeFits s.cfg i := by
  cases h with
  | request w d rest hoffer hdecode =>
    obtain ⟨hnone | hsome, -⟩ := decodeRequest_operands hdecode
    · exact timeFits_of_none hnone
    · exact timeFits_of_sample hsome
  | report p now st hdecode => exact timeFits_of_sample (decodeReport_operands hdecode).1
  | notify p hdecode => exact timeFits_of_none (decodeNotify_operands hdecode).1
  | issued p now st hsend => exact timeFits_of_sample (hsend ▸ (sendInstr_operands s.cfg p now st).1)

/-- A received byte reaches the block only with a request word of selector POLL (R34, R62). -/
theorem Source.request_of_rxByte {s : State} {i : Instr} {b : Byte} (h : Source s i)
    (hb : rxByteOperand i = some b) :
    ∃ w d rest, s.offers = .request w d :: rest ∧ reqOp w = 0x06 ∧ d.rxByte = some b := by
  cases h with
  | request w d rest hoffer hdecode =>
    exact ⟨w, d, rest, hoffer, (decodeRequest_operands hdecode).2 b hb⟩
  | report p now st hdecode => simp [(decodeReport_operands hdecode).2] at hb
  | notify p hdecode => simp [(decodeNotify_operands hdecode).2] at hb
  | issued p now st hsend => simp [hsend, (sendInstr_operands s.cfg p now st).2] at hb

/-- All a fetch can answer where it does not refuse: an instruction to run, or a state that only notes an illegal
word. -/
def Fetched.Takes (s : State) : Fetched → Prop
  | .run i u => Dequeued s u ∧ Source s i
  | .done t => ∃ u, Dequeued s u ∧ Noted u t
  | .refuse _ => True

theorem fetch_takes (s : State) : (fetch s).Takes s := by
  unfold fetch
  split
  case h_1 => exact ⟨s, ⟨s.offers, s.frames, s.issued, List.suffix_rfl, rfl⟩, .refl s⟩
  case h_2 w d rest hoffer =>
    have hdeq : Dequeued s { s with offers := rest } := ⟨rest, s.frames, s.issued, List.suffix_rfl, rfl⟩
    unfold fetchRequest
    split
    case h_1 i hdecode => exact ⟨hdeq, .request w d rest hoffer hdecode⟩
    case h_2 => exact ⟨_, hdeq, noted_respond _ _ _⟩
  case h_3 p now st rest _ =>
    have hdeq : Dequeued s { s with offers := rest } := ⟨rest, s.frames, s.issued, List.suffix_rfl, rfl⟩
    unfold fetchReport
    split
    case h_1 i hdecode => exact ⟨hdeq, .report p now st hdecode⟩
    case h_2 => trivial
  case h_4 rest _ =>
    unfold fetchDispatch
    split
    case h_1 => exact ⟨_, ⟨rest, s.frames, s.issued, List.suffix_rfl, rfl⟩, .refl _⟩
    case h_2 f fs hframes =>
      have hsuffix : fs <:+ s.frames := ⟨[f], hframes.symm⟩
      have hdeq : Dequeued s { s with offers := rest, frames := fs } := ⟨rest, fs, s.issued, hsuffix, rfl⟩
      split
      case h_1 i hdecode => exact ⟨hdeq, .notify _ hdecode⟩
      case h_2 => exact ⟨_, hdeq, .refl _⟩
  case h_5 now st rest _ =>
    unfold fetchIssued
    split
    case h_1 => exact ⟨_, ⟨rest, s.frames, s.issued, List.suffix_rfl, rfl⟩, .refl _⟩
    case h_2 p ps _ =>
      refine ⟨?_, .issued p now st rfl⟩
      split
      · exact ⟨rest, s.frames, s.issued, List.suffix_rfl, rfl⟩
      · exact ⟨rest, s.frames, ps, List.suffix_rfl, rfl⟩

/-! ### What a received byte can do (R82 to R88) -/

/-- The state after the record step (R79). -/
def recorded (b : Byte) (s : State) : State :=
  { s with rxbuf := Memory.write s.rxbuf s.rxidx b, rxidx := s.rxidx + 1 }

/-- The frame that the byte `b` completes (R88). -/
def completedFrame (b : Byte) (s : State) : List Byte :=
  Memory.readList (Memory.write s.rxbuf s.rxidx b) 0 s.rxexp

/-- All that consuming the byte `b` can do to `s`: the resulting state. -/
inductive Consumed (b : Byte) (s : State) : State → Prop
  /-- the byte is dropped and nothing changes (R82, R84, R87) -/
  | ignored : Consumed b s s
  /-- the frame in progress is dropped (R83, R85), or completes and fails validation (R88) -/
  | cleared : Consumed b s (clear s)
  /-- the byte starts a new frame (R81) -/
  | restarted (hroom : 0 < s.cfg.frameBufSize) (hb : b = s.cfg.header1) :
      Consumed b s { clear s with rxbuf := Memory.write [] 0 b, rxidx := 1, fst := .sawHeader1 }
  /-- R83 -/
  | header2 (hroom : s.rxidx < s.cfg.frameBufSize) (hfst : s.fst = .sawHeader1) (hb : b = s.cfg.header2) :
      Consumed b s { recorded b s with fst := .sawHeader2 }
  /-- R84 -/
  | ackFlag (hroom : s.rxidx < s.cfg.frameBufSize) (hfst : s.fst = .sawHeader2)
      (hb : b = s.cfg.ackv ∨ b = s.cfg.noackv) :
      Consumed b s { recorded b s with fst := .sawLength }
  /-- R85 -/
  | length (hroom : s.rxidx < s.cfg.frameBufSize) (hfst : s.fst = .sawLength) (hb : b.toNat ≤ s.cfg.maxPayload) :
      Consumed b s { recorded b s with rxexp := 2 + 1 + 1 + b.toNat + 2 + 1, fst := .accumulating }
  /-- R86 -/
  | data (hroom : s.rxidx < s.cfg.frameBufSize) (hfst : s.fst = .accumulating) (hidx : s.rxidx < s.rxexp) :
      Consumed b s (recorded b s)
  /-- R88 -/
  | delivered (hroom : s.rxexp ≤ s.cfg.frameBufSize) (hfst : s.fst = .accumulating) (hidx : s.rxidx < s.rxexp)
      (hvalid : validate s.cfg (completedFrame b s) = .ok) :
      Consumed b s (clear (emitFrame (completedFrame b s) s))

theorem consumed_of_restart {b : Byte} {s t : State} (hb : b = s.cfg.header1) (h : restart b s = .ok t) :
    Consumed b s t := by
  obtain ⟨hroom, rfl⟩ := restart_eq_ok.1 h
  exact .restarted hroom hb

theorem consumeIdle_consumed {b : Byte} {s t : State} (h : consumeIdle b s = .ok t) : Consumed b s t := by
  unfold consumeIdle at h
  split at h
  case isTrue hb => exact consumed_of_restart hb h
  case isFalse => cases h; exact .ignored

theorem consumeSawHeader1_consumed {b : Byte} {s t : State} (hfst : s.fst = .sawHeader1)
    (h : consumeSawHeader1 b s = .ok t) : Consumed b s t := by
  unfold consumeSawHeader1 at h
  split at h
  case isTrue hb =>
    obtain ⟨u, hrec, rfl⟩ := except_map_eq_ok.1 h
    obtain ⟨hroom, rfl⟩ := record_eq_ok.1 hrec
    exact .header2 hroom hfst hb
  case isFalse =>
    split at h
    case isTrue hb => exact consumed_of_restart hb h
    case isFalse => cases h; exact .cleared

theorem consumeSawHeader2_consumed {b : Byte} {s t : State} (hfst : s.fst = .sawHeader2)
    (h : consumeSawHeader2 b s = .ok t) : Consumed b s t := by
  unfold consumeSawHeader2 at h
  split at h
  case isTrue hb =>
    obtain ⟨u, hrec, rfl⟩ := except_map_eq_ok.1 h
    obtain ⟨hroom, rfl⟩ := record_eq_ok.1 hrec
    exact .ackFlag hroom hfst hb
  case isFalse =>
    split at h
    case isTrue hb => exact consumed_of_restart hb h
    case isFalse => cases h; exact .ignored

theorem consumeSawLength_consumed {b : Byte} {s t : State} (hfst : s.fst = .sawLength)
    (h : consumeSawLength b s = .ok t) : Consumed b s t := by
  unfold consumeSawLength at h
  split at h
  case isTrue hb =>
    obtain ⟨u, hrec, rfl⟩ := except_map_eq_ok.1 h
    obtain ⟨hroom, rfl⟩ := record_eq_ok.1 hrec
    exact .length hroom hfst hb
  case isFalse =>
    split at h
    case isTrue hb => exact consumed_of_restart hb h
    case isFalse => cases h; exact .cleared

theorem consumeAccumulating_consumed {b : Byte} {s : State} {r : State × List Code} (hfst : s.fst = .accumulating)
    (h : consumeAccumulating b s = .ok r) : Consumed b s r.1 := by
  unfold consumeAccumulating at h
  split at h
  case isTrue hidx =>
    cases hrec : record b s with
    | error e => simp [hrec] at h
    | ok t =>
      obtain ⟨hroom, rfl⟩ := record_eq_ok.1 hrec
      simp only [hrec] at h
      split at h
      · obtain ⟨hexp, rfl⟩ := complete_eq_ok.1 h
        split
        case isTrue hvalid => exact .delivered hexp hfst hidx hvalid
        case isFalse => exact .cleared
      · cases h; exact .data hroom hfst hidx
  case isFalse =>
    -- a byte that is discarded is treated as a byte in Idle (R87)
    obtain ⟨t, ht, rfl⟩ := (noEvent_eq_ok (r := consumeIdle b s)).1 h
    exact consumeIdle_consumed ht

theorem consume_consumed {b : Byte} {s : State} {r : State × List Code} (h : consume b s = .ok r) :
    Consumed b s r.1 := by
  unfold consume at h
  cases hfst : s.fst <;> rw [hfst] at h
  case idle => obtain ⟨t, ht, rfl⟩ := noEvent_eq_ok.1 h; exact consumeIdle_consumed ht
  case sawHeader1 => obtain ⟨t, ht, rfl⟩ := noEvent_eq_ok.1 h; exact consumeSawHeader1_consumed hfst ht
  case sawHeader2 => obtain ⟨t, ht, rfl⟩ := noEvent_eq_ok.1 h; exact consumeSawHeader2_consumed hfst ht
  case sawLength => obtain ⟨t, ht, rfl⟩ := noEvent_eq_ok.1 h; exact consumeSawLength_consumed hfst ht
  case accumulating => exact consumeAccumulating_consumed hfst h

/-! ### What an instruction can do -/

/-- The state after `bs` is loaded into space TX (R42). -/
def loaded (bs : List Byte) (s : State) : State :=
  { s with txbuf := Memory.writeList s.txbuf 0 bs, txlen := bs.length }

/-- All that an instruction of the TX agent or of no agent can do to `s`: the instruction and the resulting state. -/
inductive TxEffect (s : State) : Instr → State → Prop
  /-- an answer, a hold, calls on a collaborator or an issued SEND, and no element of either agent changed -/
  | noted {i : Instr} {t : State} (h : Noted s t) : TxEffect s i t
  /-- BUILD makes a frame (R74) -/
  | built {i : Instr} (bs : List Byte) (data : Data) (hwst : s.wst ≠ .waking)
      (hlen : bs.length ≤ s.cfg.frameBufSize) : TxEffect s i (respond .ok data (loaded bs s))
  /-- a send whose module is ready (R95) -/
  | sent {i : Instr} (bs : List Byte) (hwst : s.wst ≠ .waking) (hlen : bs.length ≤ s.cfg.frameBufSize) :
      TxEffect s i (respond .ok (.event .sent)
        (emitTx (Memory.readList (loaded bs s).txbuf 0 (loaded bs s).txlen) (loaded bs s)))
  /-- a send whose module is not ready (R95) -/
  | wakeEntered {i : Instr} (bs : List Byte) (now : Nat) (hwst : s.wst ≠ .waking)
      (hlen : bs.length ≤ s.cfg.frameBufSize) (hnow : timeOperand i = some now) :
      TxEffect s i (respond .pending .none (enterWake now (loaded bs s)))
  /-- a TICK that ends a wake by success (R98, R99) -/
  | wakeSucceeded (now : Nat) (st : Bool) :
      TxEffect s (.tick now st) (respond .ok (.event .sent)
        { emitTx (Memory.readList s.txbuf 0 s.txlen) (setWakeOut now true s) with wst := .idle })
  /-- a TICK that ends a wake by timeout (R98, R100) -/
  | wakeTimedOut (now : Nat) (st : Bool) (hold : Nat) (hhold : hold = s.tHold ∨ hold = now) :
      TxEffect s (.tick now st) (respond .ok (.event .wakeTimeout) (endWake now { s with tHold := hold }))
  /-- a TICK that toggles the pin (R98, R101) -/
  | toggled (now : Nat) (st : Bool) (hold : Nat) (hwst : s.wst = .waking) (hhold : hold = s.tHold ∨ hold = now) :
      TxEffect s (.tick now st) (respond .ok .none
        { setWakeOut now (!s.wakeOut) { s with tHold := hold } with tToggle := now, tHold := now })
  /-- a TICK that only samples the status pin (R98) -/
  | sampled (now : Nat) (st : Bool) (hold : Nat) (hhold : hold = s.tHold ∨ hold = now) :
      TxEffect s (.tick now st) (respond .ok .none { s with tHold := hold })

/-- All that a POLL at `now` can do to `s`: the byte it carries, if it carries one, and the resulting state (R90). -/
inductive PollEffect (now : Nat) (s : State) : Option Byte → State → Prop
  | noByte (evs : List Code) : PollEffect now s none (respond .ok (.events evs) (inactivityCheck now s).1)
  | byte (b : Byte) (evs : List Code) (u : State) (h : Consumed b { (inactivityCheck now s).1 with tLastRx := now } u) :
      PollEffect now s (some b) (respond .ok (.events evs) u)

/-- All that an instruction can do to `s`: the instruction and the resulting state. -/
inductive Effect (s : State) : Instr → State → Prop
  | tx {i : Instr} {t : State} (h : TxEffect s i t) : Effect s i t
  | poll {now : Nat} {x : Option Byte} {t : State} (h : PollEffect now s x t) : Effect s (.poll now x) t
  /-- RESET (R131) -/
  | reset (now : Nat) (data : Data) : Effect s (.reset now) (respond .ok data (setWakeOut now true (resetState s)))

theorem buildRequest_effect {a : AckSel} {p : List Byte} {i : Instr} {s t : State}
    (h : buildRequest a p s = .next t) : TxEffect s i t := by
  unfold buildRequest at h
  split at h
  case isTrue => cases h; exact .noted (noted_hold s)
  case isFalse hwst =>
    split at h
    case isTrue => cases h; exact .noted (noted_respond _ _ s)
    case isFalse =>
      obtain ⟨u, hload, rfl⟩ := except_map_eq_ok.1 (outcomeOf_eq_next.1 h)
      obtain ⟨hlen, rfl⟩ := txLoad_eq_ok.1 hload
      exact .built _ _ hwst hlen

/-- The load and the wake start that SEND and SEND_RAW share (R95 to R97). -/
theorem load_wakeStart_effect {bs : List Byte} {now : Nat} {st : Bool} {i : Instr} {s t : State}
    (hwst : s.wst ≠ .waking) (hnow : timeOperand i = some now)
    (h : outcomeOf ((txLoad bs s).bind (wakeStart now st)) = .next t) : TxEffect s i t := by
  obtain ⟨u, hload, hwake⟩ := except_bind_eq_ok.1 (outcomeOf_eq_next.1 h)
  obtain ⟨hlen, rfl⟩ := txLoad_eq_ok.1 hload
  obtain ⟨-, -, rfl⟩ | ⟨-, rfl⟩ := wakeStart_eq_ok.1 hwake
  · exact .sent bs hwst hlen
  · exact .wakeEntered bs now hwst hlen hnow

theorem sendRequest_effect {a : AckSel} {p : List Byte} {now : Nat} {st : Bool} {i : Instr} {s t : State}
    (hnow : timeOperand i = some now) (h : sendRequest a p now st s = .next t) : TxEffect s i t := by
  unfold sendRequest at h
  split at h
  case isTrue => cases h; exact .noted (noted_hold s)
  case isFalse hwst =>
    split at h
    case isTrue => cases h; exact .noted (noted_respond _ _ s)
    case isFalse => exact load_wakeStart_effect hwst hnow h

theorem execSendRaw_effect {bs : List Byte} {now : Nat} {st : Bool} {s t : State}
    (h : execSendRaw bs now st s = .next t) : TxEffect s (.sendRaw bs now st) t := by
  unfold execSendRaw at h
  split at h
  case isTrue => cases h; exact .noted (noted_hold s)
  case isFalse hwst =>
    split at h
    case isTrue => cases h; exact .noted (noted_respond _ _ s)
    case isFalse => exact load_wakeStart_effect hwst rfl h

theorem execPoll_effect {now : Nat} {x : Option Byte} {s t : State} (h : execPoll now x s = .next t) :
    PollEffect now s x t := by
  obtain ⟨u, evs, hu, rfl⟩ := execPoll_eq_next.1 h
  cases x with
  | none => cases hu; exact .noByte _
  | some b => exact .byte b _ u (consume_consumed hu)

/-- The sample of a TICK changes at most the time the hold was broken (R98). -/
theorem sampleHold_cases (now : Nat) (st : Bool) (s : State) :
    ∃ hold, (hold = s.tHold ∨ hold = now) ∧ sampleHold now st s = { s with tHold := hold } := by
  unfold sampleHold
  split
  · exact ⟨s.tHold, .inl rfl, rfl⟩
  · exact ⟨now, .inr rfl, rfl⟩

theorem wakeIteration_effect {now : Nat} {st : Bool} {s t : State} (hwst : s.wst = .waking)
    (h : wakeIteration now st s = .ok t) : TxEffect s (.tick now st) t := by
  obtain ⟨hold, hhold, hsample⟩ := sampleHold_cases now st s
  obtain ⟨-, -, hsuccess⟩ | ⟨-, ⟨-, rfl⟩ | ⟨-, rfl⟩⟩ := wakeIteration_eq_ok.1 h
  · obtain ⟨-, rfl⟩ := wakeSuccess_eq_ok.1 hsuccess
    exact .wakeSucceeded now st
  · rw [hsample]
    exact .wakeTimedOut now st hold hhold
  · rw [hsample]
    obtain ⟨-, htoggle⟩ | ⟨-, htoggle⟩ := toggleStep_cases now { s with tHold := hold }
    · rw [htoggle]; exact .toggled now st hold hwst hhold
    · rw [htoggle]; exact .sampled now st hold hhold

theorem execTick_effect {now : Nat} {st : Bool} {s t : State} (h : execTick now st s = .next t) :
    TxEffect s (.tick now st) t := by
  unfold execTick at h
  split at h
  case h_1 => cases h; exact .noted (noted_respond _ _ s)
  case h_2 hwst => exact wakeIteration_effect hwst (outcomeOf_eq_next.1 h)

theorem execCmdLed_noted (s : State) : Noted s { s with issued := s.issued ++ [s.cfg.ledResponse] } :=
  ⟨_, [], rfl, rfl, by rw [List.append_nil]⟩

theorem linkStatus_noted (rest : List Byte) (s : State) : Noted s (linkStatus rest s) := by
  unfold linkStatus
  cases rest with
  | nil => exact .refl s
  | cons sub _ =>
    dsimp only
    split_ifs
    · exact (noted_emitCall _ s).trans (noted_emitCall _ _)
    · exact (noted_emitCall _ s).trans (noted_emitCall _ _)
    · exact noted_emitCall _ s
    · exact .refl s

theorem exec_effect {i : Instr} {s t : State} (h : exec i s = .next t) : Effect s i t := by
  cases i with
  | poll => exact .poll (execPoll_effect h)
  | reset now => cases h; exact .reset now _
  | crc | validate => cases h; exact .tx (.noted (noted_respond _ _ s))
  | buildAck | buildNoack => exact .tx (buildRequest_effect h)
  | sendRaw => exact .tx (execSendRaw_effect h)
  | sendAck | sendNoack | cmdSetPairing | cmdOpenAdv | cmdCloseAdv | cmdKeyboard | cmdNkro | cmdConsumer | cmdSystem
  | cmdMouse | cmdRawHidOut => exact .tx (sendRequest_effect rfl h)
  | tick => exact .tx (execTick_effect h)
  | cmdLed rest => cases h; exact .tx (.noted (execCmdLed_noted s))
  | cmdRawHidIn => cases h; exact .tx (.noted (noted_emitCall _ s))
  | cmdLinkStatusA1 rest | cmdLinkStatusA2 rest | cmdLinkStatusA3 rest | cmdLinkStatusA4 rest
  | cmdLinkStatusA5 rest | cmdLinkStatusA7 rest => cases h; exact .tx (.noted (linkStatus_noted rest s))

/-- All a step can do: take an offer off the schedule, and then note something or run the instruction of that offer. -/
theorem step_cases {s t : State} (h : step s = .next t) :
    ∃ u, Dequeued s u ∧ (Noted u t ∨ ∃ i, Source s i ∧ Effect u i t) := by
  have htakes := fetch_takes s
  obtain ⟨i, u, hrun, hexec⟩ | hdone := step_eq_next.1 h
  · rw [hrun] at htakes
    obtain ⟨hdeq, hsource⟩ := htakes
    exact ⟨u, hdeq, .inr ⟨i, hsource, exec_effect hexec⟩⟩
  · rw [hdone] at htakes
    obtain ⟨u, hdeq, hnoted⟩ := htakes
    exact ⟨u, hdeq, .inl hnoted⟩

/-! ### What stays as it was (R21, R50) -/

theorem Dequeued.cfg_eq {s u : State} (h : Dequeued s u) : u.cfg = s.cfg := by
  obtain ⟨_, _, _, -, rfl⟩ := h; rfl

theorem Dequeued.trace_eq {s u : State} (h : Dequeued s u) : u.trace = s.trace := by
  obtain ⟨_, _, _, -, rfl⟩ := h; rfl

theorem Dequeued.sameRx {s u : State} (h : Dequeued s u) : SameRx s u := by
  obtain ⟨_, _, _, -, rfl⟩ := h; exact ⟨rfl, rfl, rfl, rfl, rfl⟩

theorem Dequeued.sameTx {s u : State} (h : Dequeued s u) : SameTx s u := by
  obtain ⟨_, _, _, -, rfl⟩ := h; exact ⟨rfl, rfl, rfl, rfl, rfl, rfl, rfl⟩

theorem Dequeued.frames_subset {s u : State} (h : Dequeued s u) : u.frames ⊆ s.frames := by
  obtain ⟨_, _, _, hsuffix, rfl⟩ := h; exact hsuffix.subset

theorem Noted.cfg_eq {s t : State} (h : Noted s t) : t.cfg = s.cfg := by
  obtain ⟨_, _, -, -, rfl⟩ := h; rfl

theorem Noted.sameRx {s t : State} (h : Noted s t) : SameRx s t := by
  obtain ⟨_, _, -, -, rfl⟩ := h; exact ⟨rfl, rfl, rfl, rfl, rfl⟩

theorem Noted.sameTx {s t : State} (h : Noted s t) : SameTx s t := by
  obtain ⟨_, _, -, -, rfl⟩ := h; exact ⟨rfl, rfl, rfl, rfl, rfl, rfl, rfl⟩

theorem Noted.txOutput_eq {s t : State} (h : Noted s t) : txOutput t.trace = txOutput s.trace := by
  obtain ⟨_, new, htx, -, rfl⟩ := h; simp [htx]

theorem Consumed.cfg_eq {b : Byte} {s u : State} (h : Consumed b s u) : u.cfg = s.cfg := by cases h <;> rfl

theorem Consumed.sameTx {b : Byte} {s u : State} (h : Consumed b s u) : SameTx s u := by
  cases h <;> exact ⟨rfl, rfl, rfl, rfl, rfl, rfl, rfl⟩

/-- The inactivity check leaves the state as it is or clears the framer (R89). -/
theorem inactivityCheck_eq (now : Nat) (s : State) :
    (inactivityCheck now s).1 = s ∨ (inactivityCheck now s).1 = clear s := by
  obtain ⟨-, h⟩ | ⟨-, h⟩ := inactivityCheck_cases now s <;> simp [h]

@[simp] theorem inactivityCheck_cfg (now : Nat) (s : State) : (inactivityCheck now s).1.cfg = s.cfg := by
  obtain h | h := inactivityCheck_eq now s <;> rw [h]; rfl

@[simp] theorem inactivityCheck_frames (now : Nat) (s : State) : (inactivityCheck now s).1.frames = s.frames := by
  obtain h | h := inactivityCheck_eq now s <;> rw [h]; rfl

theorem inactivityCheck_sameTx (now : Nat) (s : State) : SameTx s (inactivityCheck now s).1 := by
  obtain h | h := inactivityCheck_eq now s <;> rw [h] <;> exact ⟨rfl, rfl, rfl, rfl, rfl, rfl, rfl⟩

theorem SameTx.trans {s t u : State} (h : SameTx s t) (h' : SameTx t u) : SameTx s u := by
  obtain ⟨hwst, hpin, hbuf, hlen, hstart, htoggle, hhold⟩ := h
  obtain ⟨hwst', hpin', hbuf', hlen', hstart', htoggle', hhold'⟩ := h'
  exact ⟨hwst'.trans hwst, hpin'.trans hpin, hbuf'.trans hbuf, hlen'.trans hlen, hstart'.trans hstart,
    htoggle'.trans htoggle, hhold'.trans hhold⟩

theorem TxEffect.cfg_eq {s t : State} {i : Instr} (h : TxEffect s i t) : t.cfg = s.cfg := by
  cases h with
  | noted h => exact h.cfg_eq
  | built | sent | sampled => rfl
  | wakeEntered => exact enterWake_cfg ..
  | wakeTimedOut => exact endWake_cfg ..
  | wakeSucceeded | toggled => exact setWakeOut_cfg ..

theorem PollEffect.cfg_eq {now : Nat} {x : Option Byte} {s t : State} (h : PollEffect now s x t) :
    t.cfg = s.cfg := by
  cases h with
  | noByte => exact inactivityCheck_cfg now s
  | byte b evs u h => exact h.cfg_eq.trans (inactivityCheck_cfg now s)

theorem Effect.cfg_eq {s t : State} {i : Instr} (h : Effect s i t) : t.cfg = s.cfg := by
  cases h with
  | tx h => exact h.cfg_eq
  | poll h => exact h.cfg_eq
  | reset now => exact setWakeOut_cfg now true (resetState s)

/-- No instruction but POLL and RESET changes anything of the RX agent (R50). -/
theorem TxEffect.sameRx {s t : State} {i : Instr} (h : TxEffect s i t) : SameRx s t := by
  cases h with
  | noted h => exact h.sameRx
  | built | sent | sampled => exact ⟨rfl, rfl, rfl, rfl, rfl⟩
  | wakeEntered | wakeSucceeded | wakeTimedOut | toggled => simp [SameRx, loaded]

/-- A POLL changes nothing of the TX agent (R50). -/
theorem PollEffect.sameTx {now : Nat} {x : Option Byte} {s t : State} (h : PollEffect now s x t) :
    SameTx s t := by
  cases h with
  | noByte => exact inactivityCheck_sameTx now s
  | byte b evs u h => exact (inactivityCheck_sameTx now s).trans h.sameTx

theorem step_cfg_eq {s t : State} (h : step s = .next t) : t.cfg = s.cfg := by
  obtain ⟨u, hdeq, hnoted | ⟨i, -, heffect⟩⟩ := step_cases h
  · exact hnoted.cfg_eq.trans hdeq.cfg_eq
  · exact heffect.cfg_eq.trans hdeq.cfg_eq

/-- Settles O49: an offer is taken, and the instruction run, without writing the configuration. -/
theorem configurationIsNeverWritten : Obligations.ConfigurationIsNeverWritten := fun _ _ => step_cfg_eq

/-- While a wake runs, no instruction of the TX agent but TICK changes anything of it (R94, R135). -/
theorem TxEffect.sameTx_of_waking {s t : State} {i : Instr} (h : TxEffect s i t) (hwst : s.wst = .waking)
    (htick : ∀ now st, i ≠ .tick now st) : SameTx s t := by
  cases h with
  | noted h => exact h.sameTx
  | built _ _ hidle | sent _ hidle | wakeEntered _ _ hidle => exact absurd hwst hidle
  | wakeSucceeded | wakeTimedOut | toggled | sampled => exact absurd rfl (htick _ _)

/-- Settles O34: the requests that write the TX agent are held during a wake, and a POLL is the RX agent's. -/
theorem onlyTickAndResetTouchARunningWake : Obligations.OnlyTickAndResetTouchARunningWake := by
  intro s t i hwst h htick hreset
  cases exec_effect h with
  | tx h => exact h.sameTx_of_waking hwst htick
  | poll h => exact h.sameTx
  | reset now => exact absurd rfl (hreset now)

/-! ### The TX byte output (R35, R93) -/

/-- A consumed byte delivers at most one frame, the one it completes (R88). -/
theorem Consumed.delivery {b : Byte} {s u : State} (h : Consumed b s u) :
    (u.frames = s.frames ∧ u.trace = s.trace) ∨
      (s.fst = .accumulating ∧ validate s.cfg (completedFrame b s) = .ok ∧
        u.frames = s.frames ++ [completedFrame b s] ∧ u.trace = s.trace ++ [.frameOut (completedFrame b s)]) := by
  cases h with
  | delivered _ hfst _ hvalid => exact .inr ⟨hfst, hvalid, rfl, rfl⟩
  | ignored | cleared | restarted | header2 | ackFlag | length | data => exact .inl ⟨rfl, rfl⟩

theorem Consumed.txOutput_eq {b : Byte} {s u : State} (h : Consumed b s u) :
    txOutput u.trace = txOutput s.trace := by
  obtain ⟨-, htrace⟩ | ⟨-, -, -, htrace⟩ := h.delivery <;> simp [htrace]

theorem PollEffect.txOutput_eq {now : Nat} {x : Option Byte} {s t : State} (h : PollEffect now s x t) :
    txOutput t.trace = txOutput s.trace := by
  cases h with
  | noByte => simp
  | byte b evs u h => simp [h.txOutput_eq]

theorem TxEffect.txOutput_cases {s t : State} {i : Instr} (h : TxEffect s i t) :
    txOutput t.trace = txOutput s.trace ∨
      txOutput t.trace = txOutput s.trace ++ Memory.readList t.txbuf 0 t.txlen := by
  cases h with
  | noted h => exact .inl h.txOutput_eq
  | sent | wakeSucceeded => exact .inr (by simp [loaded])
  | built | wakeEntered | wakeTimedOut | toggled | sampled =>
    exact .inl (by simp [loaded, enterWake_trace, endWake_trace])

/-- An instruction transmits nothing or the valid bytes of TXBUF (R93). -/
theorem Effect.txOutput_cases {s t : State} {i : Instr} (h : Effect s i t) :
    txOutput t.trace = txOutput s.trace ∨
      txOutput t.trace = txOutput s.trace ++ Memory.readList t.txbuf 0 t.txlen := by
  cases h with
  | tx h => exact h.txOutput_cases
  | poll h => exact .inl h.txOutput_eq
  | reset => exact .inl (by simp)

/-- Settles O53: the fetch transmits nothing, and the instruction only what the transmit step reads. -/
theorem onlyTheTransmitBufferIsTransmitted : Obligations.OnlyTheTransmitBufferIsTransmitted := by
  intro s t h
  obtain ⟨u, hdeq, hnoted | ⟨i, -, heffect⟩⟩ := step_cases h
  · exact .inl (by rw [hnoted.txOutput_eq, hdeq.trace_eq])
  · rw [← hdeq.trace_eq]
    exact heffect.txOutput_cases

/-! ### The RX agent's part of the invariant (R23 to R27) -/

/-- The part of `Inv` about the RX agent's elements. -/
structure RxInv (s : State) : Prop where
  framer : FramerInv s
  headers : HeadersKept s
  wf : Memory.wf s.rxbuf
  bound : ∀ c ∈ s.rxbuf, c.1 < s.cfg.frameBufSize
  time : s.tLastRx < 2 ^ s.cfg.timerWidth

theorem RxInv.of_sameRx {s t : State} (h : RxInv s) (hcfg : t.cfg = s.cfg) (hsame : SameRx s t) : RxInv t := by
  cases s
  cases t
  obtain ⟨hfst, hbuf, hidx, hexp, hlast⟩ := hsame
  dsimp only at hcfg hfst hbuf hidx hexp hlast
  subst hcfg hfst hbuf hidx hexp hlast
  obtain ⟨⟨hclean, hidle, hheader, h1, h2, hlen, hacc⟩, hkept, hwf, hbound, htime⟩ := h
  exact ⟨⟨hclean, hidle, hheader, h1, h2, hlen, hacc⟩, hkept, hwf, hbound, htime⟩

/-- A cleared framer meets its invariant, whatever was in progress (R80). -/
theorem rxInv_of_cleared {s : State} (hfst : s.fst = .idle) (hbuf : s.rxbuf = []) (hidx : s.rxidx = 0)
    (hexp : s.rxexp = 0) (htime : s.tLastRx < 2 ^ s.cfg.timerWidth) : RxInv s where
  framer :=
    { clean := by simp [hbuf]
      idle := by simp [hidx, hexp]
      header := by simp [hexp]
      sawHeader1 := by simp [hfst]
      sawHeader2 := by simp [hfst]
      sawLength := by simp [hfst]
      accumulating := by simp [hfst] }
  headers := by simp [HeadersKept, hfst]
  wf := hbuf ▸ Memory.empty_wf
  bound := by simp [hbuf]
  time := htime

theorem RxInv.clear {s : State} (h : RxInv s) : RxInv (clear s) := rxInv_of_cleared rfl rfl rfl rfl h.time

theorem RxInv.touched {s : State} {now : Nat} (h : RxInv s) (hnow : now < 2 ^ s.cfg.timerWidth) :
    RxInv { s with tLastRx := now } := by
  obtain ⟨⟨hclean, hidle, hheader, h1, h2, hlen, hacc⟩, hkept, hwf, hbound, -⟩ := h
  exact ⟨⟨hclean, hidle, hheader, h1, h2, hlen, hacc⟩, hkept, hwf, hbound, hnow⟩

/-- The byte a record step writes is at `RXIDX` and nowhere else (R79). -/
theorem read_recorded {b : Byte} {s : State} (h : RxInv s) (a : Nat) :
    Memory.read (recorded b s).rxbuf a = if a = s.rxidx then b else Memory.read s.rxbuf a :=
  Memory.read_write h.wf s.rxidx b a

theorem recorded_clean {b : Byte} {s : State} (h : RxInv s) :
    ∀ i, (recorded b s).rxidx ≤ i → Memory.read (recorded b s).rxbuf i = 0 := by
  intro i hi
  have hlt : s.rxidx < i := hi
  rw [read_recorded h, if_neg (by omega)]
  exact h.framer.clean i (by omega)

theorem recorded_bound {b : Byte} {s : State} (h : RxInv s) (hroom : s.rxidx < s.cfg.frameBufSize) :
    ∀ c ∈ (recorded b s).rxbuf, c.1 < s.cfg.frameBufSize := by
  intro c hc
  obtain hold | ⟨rfl, -⟩ := Memory.mem_write hc
  · exact h.bound c hold
  · exact hroom

/-- The conditions on the new framer state under which a recorded byte keeps the invariant: the rest, the buffer's form
and the unwritten bytes, the record step keeps by itself. -/
theorem rxInv_of_recorded {b : Byte} {s : State} {fst : Fst} {rxexp : Nat} (h : RxInv s)
    (hroom : s.rxidx < s.cfg.frameBufSize)
    (hframer : FramerInv { recorded b s with fst := fst, rxexp := rxexp })
    (hheaders : HeadersKept { recorded b s with fst := fst, rxexp := rxexp }) :
    RxInv { recorded b s with fst := fst, rxexp := rxexp } where
  framer := hframer
  headers := hheaders
  wf := Memory.write_wf h.wf _ _
  bound := recorded_bound h hroom
  time := h.time

theorem rxInv_restarted {s : State} (h : RxInv s) (hroom : 0 < s.cfg.frameBufSize) :
    RxInv { Machine.clear s with rxbuf := Memory.write [] 0 s.cfg.header1, rxidx := 1, fst := .sawHeader1 } := by
  have hread : ∀ a, Memory.read (Memory.write [] 0 s.cfg.header1) a = if a = 0 then s.cfg.header1 else 0 :=
    Memory.read_write Memory.empty_wf 0 _
  exact
    { framer :=
        { clean := fun i hi => by
            have hpos : 1 ≤ i := hi
            rw [hread, if_neg (by omega)]
          idle := nofun
          header := fun _ => rfl
          sawHeader1 := fun _ => ⟨rfl, hread 0⟩
          sawHeader2 := nofun
          sawLength := nofun
          accumulating := nofun }
      headers := ⟨fun _ => hread 0, nofun⟩
      wf := Memory.write_wf Memory.empty_wf _ _
      bound := recorded_bound (b := s.cfg.header1) h.clear hroom
      time := h.time }

theorem rxInv_header2 {s : State} (h : RxInv s) (hroom : s.rxidx < s.cfg.frameBufSize) (hfst : s.fst = .sawHeader1) :
    RxInv { recorded s.cfg.header2 s with fst := .sawHeader2 } := by
  obtain ⟨hidx, h0⟩ := h.framer.sawHeader1 hfst
  have hread0 : Memory.read (recorded s.cfg.header2 s).rxbuf 0 = s.cfg.header1 := by simp [read_recorded h, hidx, h0]
  have hread1 : Memory.read (recorded s.cfg.header2 s).rxbuf 1 = s.cfg.header2 := by simp [read_recorded h, hidx]
  exact rxInv_of_recorded h hroom
    { clean := recorded_clean h
      idle := nofun
      header := fun _ => h.framer.header (.inl hfst)
      sawHeader1 := nofun
      sawHeader2 := fun _ => ⟨congrArg (· + 1) hidx, hread0, hread1⟩
      sawLength := nofun
      accumulating := nofun }
    ⟨fun _ => hread0, nofun⟩

theorem rxInv_ackFlag {b : Byte} {s : State} (h : RxInv s) (hroom : s.rxidx < s.cfg.frameBufSize)
    (hfst : s.fst = .sawHeader2) (hb : b = s.cfg.ackv ∨ b = s.cfg.noackv) :
    RxInv { recorded b s with fst := .sawLength } := by
  obtain ⟨hidx, h0, h1⟩ := h.framer.sawHeader2 hfst
  have hread0 : Memory.read (recorded b s).rxbuf 0 = s.cfg.header1 := by simp [read_recorded h, hidx, h0]
  have hread1 : Memory.read (recorded b s).rxbuf 1 = s.cfg.header2 := by simp [read_recorded h, hidx, h1]
  have hread2 : Memory.read (recorded b s).rxbuf 2 = b := by simp [read_recorded h, hidx]
  exact rxInv_of_recorded h hroom
    { clean := recorded_clean h
      idle := nofun
      header := fun _ => h.framer.header (.inr (.inl hfst))
      sawHeader1 := nofun
      sawHeader2 := nofun
      sawLength := fun _ => ⟨congrArg (· + 1) hidx, hread2.symm ▸ hb⟩
      accumulating := nofun }
    ⟨fun _ => hread0, fun _ => hread1⟩

theorem rxInv_length {b : Byte} {s : State} (hcfg : s.cfg.Wf) (h : RxInv s)
    (hroom : s.rxidx < s.cfg.frameBufSize) (hfst : s.fst = .sawLength) (hb : b.toNat ≤ s.cfg.maxPayload) :
    RxInv { recorded b s with rxexp := 2 + 1 + 1 + b.toNat + 2 + 1, fst := .accumulating } := by
  obtain ⟨hidx, -⟩ := h.framer.sawLength hfst
  obtain ⟨hkept0, hkept1⟩ := h.headers
  have hread0 : Memory.read (recorded b s).rxbuf 0 = s.cfg.header1 := by
    simp [read_recorded h, hidx, hkept0 (by simp [hfst])]
  have hread1 : Memory.read (recorded b s).rxbuf 1 = s.cfg.header2 := by
    simp [read_recorded h, hidx, hkept1 (.inl hfst)]
  have hread3 : Memory.read (recorded b s).rxbuf 3 = b := by simp [read_recorded h, hidx]
  have hidx' : (recorded b s).rxidx = 4 := congrArg (· + 1) hidx
  have hsize : s.cfg.maxPayload + 7 ≤ s.cfg.frameBufSize := hcfg.1
  refine rxInv_of_recorded h hroom
    { clean := recorded_clean h
      idle := nofun
      header := nofun
      sawHeader1 := nofun
      sawHeader2 := nofun
      sawLength := nofun
      accumulating := fun _ => ?_ }
    ⟨fun _ => hread0, fun _ => hread1⟩
  show 4 ≤ (recorded b s).rxidx ∧ (recorded b s).rxidx ≤ 2 + 1 + 1 + b.toNat + 2 + 1 ∧
    2 + 1 + 1 + b.toNat + 2 + 1 = 7 + (Memory.read (recorded b s).rxbuf 3).toNat ∧
    (Memory.read (recorded b s).rxbuf 3).toNat ≤ s.cfg.maxPayload ∧
    2 + 1 + 1 + b.toNat + 2 + 1 ≤ s.cfg.frameBufSize
  rw [hread3, hidx']
  omega

theorem rxInv_data {b : Byte} {s : State} (h : RxInv s) (hroom : s.rxidx < s.cfg.frameBufSize)
    (hfst : s.fst = .accumulating) (hidx : s.rxidx < s.rxexp) : RxInv (recorded b s) := by
  obtain ⟨hlow, -, hexp, hmax, hsize⟩ := h.framer.accumulating hfst
  obtain ⟨hkept0, hkept1⟩ := h.headers
  have hread : ∀ a, a < 4 → Memory.read (recorded b s).rxbuf a = Memory.read s.rxbuf a := fun a ha => by
    rw [read_recorded h, if_neg (by omega)]
  refine rxInv_of_recorded (rxexp := s.rxexp) (fst := s.fst) h hroom
    { clean := recorded_clean h
      idle := by simp [hfst]
      header := by simp [hfst]
      sawHeader1 := by simp [hfst]
      sawHeader2 := by simp [hfst]
      sawLength := by simp [hfst]
      accumulating := fun _ => ?_ }
    ⟨fun hne => (hread 0 (by omega)).trans (hkept0 hne), fun hor => (hread 1 (by omega)).trans (hkept1 hor)⟩
  show 4 ≤ s.rxidx + 1 ∧ s.rxidx + 1 ≤ s.rxexp ∧
    s.rxexp = 7 + (Memory.read (recorded b s).rxbuf 3).toNat ∧
    (Memory.read (recorded b s).rxbuf 3).toNat ≤ s.cfg.maxPayload ∧ s.rxexp ≤ s.cfg.frameBufSize
  rw [hread 3 (by omega)]
  omega

theorem Consumed.rxInv {b : Byte} {s u : State} (h : Consumed b s u) (hcfg : s.cfg.Wf) (hs : RxInv s) : RxInv u := by
  cases h with
  | ignored => exact hs
  | cleared => exact hs.clear
  | restarted hroom hb => subst hb; exact rxInv_restarted hs hroom
  | header2 hroom hfst hb => subst hb; exact rxInv_header2 hs hroom hfst
  | ackFlag hroom hfst hb => exact rxInv_ackFlag hs hroom hfst hb
  | length hroom hfst hb => exact rxInv_length hcfg hs hroom hfst hb
  | data hroom hfst hidx => exact rxInv_data hs hroom hfst hidx
  | delivered => exact rxInv_of_cleared rfl rfl rfl rfl hs.time

theorem RxInv.inactivityCheck {s : State} (h : RxInv s) (now : Nat) : RxInv (inactivityCheck now s).1 := by
  obtain heq | heq := inactivityCheck_eq now s <;> rw [heq]
  · exact h
  · exact h.clear

theorem PollEffect.rxInv {now : Nat} {x : Option Byte} {s t : State} (h : PollEffect now s x t) (hcfg : s.cfg.Wf)
    (hnow : now < 2 ^ s.cfg.timerWidth) (hs : RxInv s) : RxInv t := by
  have hchecked : RxInv (Machine.inactivityCheck now s).1 := hs.inactivityCheck now
  cases h with
  | noByte => exact hchecked.of_sameRx rfl ⟨rfl, rfl, rfl, rfl, rfl⟩
  | byte b evs u h =>
    have hu : RxInv u := h.rxInv (by simpa using hcfg) (hchecked.touched (by simpa using hnow))
    exact hu.of_sameRx rfl ⟨rfl, rfl, rfl, rfl, rfl⟩

theorem Effect.rxInv {s t : State} {i : Instr} (h : Effect s i t) (hcfg : s.cfg.Wf) (htime : TimeFits s.cfg i)
    (hs : RxInv s) : RxInv t := by
  cases h with
  | tx h => exact hs.of_sameRx h.cfg_eq h.sameRx
  | poll h => exact h.rxInv hcfg (htime _ rfl) hs
  | reset => exact rxInv_of_cleared (by simp) (by simp) (by simp) (by simp) (by simp)

/-! ### The TX agent's part of the invariant (R29 to R31) -/

/-- The part of `Inv` about the TX agent's elements. -/
structure TxInv (s : State) : Prop where
  pin : WakePinInv s
  wf : Memory.wf s.txbuf
  bound : ∀ c ∈ s.txbuf, c.1 < s.cfg.frameBufSize
  len : TxLenInv s
  start : s.tStart < 2 ^ s.cfg.timerWidth
  toggle : s.tToggle < 2 ^ s.cfg.timerWidth
  hold : s.tHold < 2 ^ s.cfg.timerWidth

theorem TxInv.of_sameTx {s t : State} (h : TxInv s) (hcfg : t.cfg = s.cfg) (hsame : SameTx s t) : TxInv t := by
  cases s
  cases t
  obtain ⟨hwst, hpin, hbuf, hlen, hstart, htoggle, hhold⟩ := hsame
  dsimp only at hcfg hwst hpin hbuf hlen hstart htoggle hhold
  subst hcfg hwst hpin hbuf hlen hstart htoggle hhold
  exact ⟨h.pin, h.wf, h.bound, h.len, h.start, h.toggle, h.hold⟩

/-- A load that fits space TX keeps the TX agent's part of the invariant (R42). -/
theorem TxInv.loaded {s : State} {bs : List Byte} (h : TxInv s) (hlen : bs.length ≤ s.cfg.frameBufSize) :
    TxInv (loaded bs s) where
  pin := h.pin
  wf := Memory.writeList_wf bs h.wf 0
  bound c hc := by
    obtain hold | ⟨-, hlt⟩ := Memory.mem_writeList bs hc
    · exact h.bound c hold
    · show c.1 < s.cfg.frameBufSize
      omega
  len := hlen
  start := h.start
  toggle := h.toggle
  hold := h.hold

theorem TxInv.enterWake {s : State} {now : Nat} (h : TxInv s) (hnow : now < 2 ^ s.cfg.timerWidth) :
    TxInv (enterWake now s) where
  pin _ := enterWake_wakeOut now s
  wf := by simpa using h.wf
  bound := by simpa using h.bound
  len := by simpa [TxLenInv] using h.len
  start := by simpa using hnow
  toggle := by simpa using hnow
  hold := by simpa using hnow

theorem TxInv.sampled {s : State} {now hold : Nat} (h : TxInv s) (hnow : now < 2 ^ s.cfg.timerWidth)
    (hhold : hold = s.tHold ∨ hold = now) : TxInv { s with tHold := hold } := by
  obtain ⟨hpin, hwf, hbound, hlen, hstart, htoggle, hold'⟩ := h
  refine ⟨hpin, hwf, hbound, hlen, hstart, htoggle, ?_⟩
  obtain rfl | rfl := hhold
  · exact hold'
  · exact hnow

/-- Driving the pin and writing the times of a running wake keeps the TX agent's part: the pin is free while a wake
runs (R29). -/
theorem TxInv.toggled {s : State} {now : Nat} (h : TxInv s) (level : Bool) (hnow : now < 2 ^ s.cfg.timerWidth)
    (hwst : s.wst = .waking) :
    TxInv { setWakeOut now level s with tToggle := now, tHold := now } where
  pin := by simp [WakePinInv, hwst]
  wf := by simpa using h.wf
  bound := by simpa using h.bound
  len := by simpa [TxLenInv] using h.len
  start := by simpa using h.start
  toggle := by simpa using hnow
  hold := by simpa using hnow

/-- A wake that ends leaves the pin high (R29, R99, R100). -/
theorem TxInv.endWake {s : State} (h : TxInv s) (now : Nat) : TxInv (endWake now s) where
  pin _ := endWake_wakeOut now s
  wf := by simpa using h.wf
  bound := by simpa using h.bound
  len := by simpa [TxLenInv] using h.len
  start := by simpa using h.start
  toggle := by simpa using h.toggle
  hold := by simpa using h.hold

theorem txInv_reset (s : State) (now : Nat) : TxInv (setWakeOut now true (resetState s)) where
  pin _ := setWakeOut_wakeOut ..
  wf := by rw [setWakeOut_txbuf]; exact Memory.empty_wf
  bound := by simp
  len := by simp [TxLenInv]
  start := by simp
  toggle := by simp
  hold := by simp

theorem TxInv.respond {s : State} (h : TxInv s) (c : Code) (d : Data) : TxInv (respond c d s) :=
  h.of_sameTx rfl ⟨rfl, rfl, rfl, rfl, rfl, rfl, rfl⟩

theorem TxInv.emitTx {s : State} (h : TxInv s) (bs : List Byte) : TxInv (emitTx bs s) :=
  h.of_sameTx rfl ⟨rfl, rfl, rfl, rfl, rfl, rfl, rfl⟩

theorem TxEffect.txInv {s t : State} {i : Instr} (h : TxEffect s i t) (htime : TimeFits s.cfg i) (hs : TxInv s) :
    TxInv t := by
  cases h with
  | noted h => exact hs.of_sameTx h.cfg_eq h.sameTx
  | built bs _ _ hlen => exact (hs.loaded hlen).respond _ _
  | sent bs _ hlen => exact ((hs.loaded hlen).emitTx _).respond _ _
  | wakeEntered bs now _ hlen hnow => exact ((hs.loaded hlen).enterWake (htime now hnow)).respond _ _
  | wakeSucceeded now =>
    have hended : TxInv (Machine.endWake now s) := hs.endWake now
    exact hended.of_sameTx rfl ⟨rfl, rfl, rfl, rfl, rfl, rfl, rfl⟩
  | wakeTimedOut now _ _ hhold => exact ((hs.sampled (htime now rfl) hhold).endWake now).respond _ _
  | toggled now _ hold hwst hhold =>
    exact ((hs.sampled (htime now rfl) hhold).toggled _ (htime now rfl) hwst).respond _ _
  | sampled now _ _ hhold => exact (hs.sampled (htime now rfl) hhold).respond _ _

theorem Effect.txInv {s t : State} {i : Instr} (h : Effect s i t) (htime : TimeFits s.cfg i) (hs : TxInv s) :
    TxInv t := by
  cases h with
  | tx h => exact h.txInv htime hs
  | poll h => exact hs.of_sameTx h.cfg_eq h.sameTx
  | reset now data => exact (txInv_reset s now).respond _ _

/-! ### The frames the dispatcher gets (R36, R88) -/

/-- The frame a completion delivers has the length its length byte says: it is the expected length, which the length
byte gave (R85). -/
theorem completedFrame_length {b : Byte} {s : State} (h : RxInv s) (hfst : s.fst = .accumulating) :
    (completedFrame b s).length = 7 + frameLen (completedFrame b s) := by
  obtain ⟨hlow, -, hexp, -, -⟩ := h.framer.accumulating hfst
  have hread3 : Memory.read (recorded b s).rxbuf 3 = Memory.read s.rxbuf 3 := by
    rw [read_recorded h, if_neg (by omega)]
  have hbyte3 : frameByte (completedFrame b s) 3 = Memory.read s.rxbuf 3 :=
    (Memory.getD_readList (recorded b s).rxbuf 0 s.rxexp 3 (by omega)).trans hread3
  rw [frameLen, hbyte3, completedFrame, Memory.readList_length, hexp]

/-- `t` has the frames of `s` waiting at the dispatcher, and the frame-out port delivered what `s` had. -/
def SameFrames (s t : State) : Prop := t.frames = s.frames ∧ framesOut t.trace = framesOut s.trace

/-- `t` has one deliverable frame more than `s`, waiting at the dispatcher and delivered on the frame-out port. -/
def OneFrameMore (s t : State) : Prop :=
  ∃ f, DeliverableFrame s.cfg f ∧ t.frames = s.frames ++ [f] ∧ framesOut t.trace = framesOut s.trace ++ [f]

theorem Noted.sameFrames {s t : State} (h : Noted s t) : SameFrames s t := by
  obtain ⟨_, new, -, hout, rfl⟩ := h
  exact ⟨rfl, by simp [hout]⟩

theorem TxEffect.sameFrames {s t : State} {i : Instr} (h : TxEffect s i t) : SameFrames s t := by
  cases h with
  | noted h => exact h.sameFrames
  | built | sent | wakeEntered | wakeSucceeded | wakeTimedOut | toggled | sampled =>
    simp [SameFrames, loaded, enterWake_trace, endWake_trace]

/-- A byte from a state that meets the framer's part of the invariant delivers nothing or one deliverable frame
(R88). -/
theorem Consumed.frames_cases {b : Byte} {s u : State} (h : Consumed b s u) (hs : RxInv s) :
    SameFrames s u ∨ OneFrameMore s u := by
  obtain ⟨hframes, htrace⟩ | ⟨hfst, hvalid, hframes, htrace⟩ := h.delivery
  · exact .inl ⟨hframes, by rw [htrace]⟩
  · exact .inr ⟨completedFrame b s, ⟨completedFrame_length hs hfst, hvalid⟩, hframes, by simp [htrace]⟩

theorem PollEffect.frames_cases {now : Nat} {x : Option Byte} {s t : State} (h : PollEffect now s x t)
    (hnow : now < 2 ^ s.cfg.timerWidth) (hs : RxInv s) :
    SameFrames s t ∨ ((∃ b, x = some b) ∧ OneFrameMore s t) := by
  cases h with
  | noByte => exact .inl (by simp [SameFrames])
  | byte b evs u h =>
    have htouched : RxInv { (Machine.inactivityCheck now s).1 with tLastRx := now } :=
      (hs.inactivityCheck now).touched (by simpa using hnow)
    refine (h.frames_cases htouched).imp (fun hsame => ?_) (fun hmore => ⟨⟨b, rfl⟩, ?_⟩)
    · simpa [SameFrames] using hsame
    · simpa [OneFrameMore] using hmore

/-- From a state that meets the framer's part of the invariant, only an instruction with a received byte delivers a
frame, at most one, and a deliverable one (R36). -/
theorem Effect.frames_cases {s t : State} {i : Instr} (h : Effect s i t) (htime : TimeFits s.cfg i) (hs : RxInv s) :
    SameFrames s t ∨ ((∃ b, rxByteOperand i = some b) ∧ OneFrameMore s t) := by
  cases h with
  | tx h => exact .inl h.sameFrames
  | poll h => exact h.frames_cases (htime _ rfl) hs
  | reset => exact .inl (by simp [SameFrames])

theorem SameFrames.framesInv {s t : State} (h : SameFrames s t) (hcfg : t.cfg = s.cfg) (hs : FramesInv s) :
    FramesInv t := by
  rw [FramesInv, h.1, hcfg]
  exact hs

theorem OneFrameMore.framesInv {s t : State} (h : OneFrameMore s t) (hcfg : t.cfg = s.cfg) (hs : FramesInv s) :
    FramesInv t := by
  obtain ⟨f, hf, hframes, -⟩ := h
  rw [FramesInv, hframes, hcfg]
  intro g hg
  obtain hold | hnew := List.mem_append.1 hg
  · exact hs g hold
  · exact List.mem_singleton.1 hnew ▸ hf

/-! ### Every step keeps the invariant (R27, R29, R30, R36, R41, R42) -/

theorem inv_iff {s : State} : Inv s ↔ s.cfg.Wf ∧ RxInv s ∧ TxInv s ∧ FramesInv s := by
  constructor
  · rintro ⟨hcfg, hframer, hheaders, hpin, ⟨hrxwf, htxwf, hrx, htx⟩, hlen, ⟨hlast, hstart, htoggle, hhold⟩, hframes⟩
    exact ⟨hcfg, ⟨hframer, hheaders, hrxwf, hrx, hlast⟩, ⟨hpin, htxwf, htx, hlen, hstart, htoggle, hhold⟩, hframes⟩
  · rintro ⟨hcfg, ⟨hframer, hheaders, hrxwf, hrx, hlast⟩, ⟨hpin, htxwf, htx, hlen, hstart, htoggle, hhold⟩, hframes⟩
    exact ⟨hcfg, hframer, hheaders, hpin, ⟨hrxwf, htxwf, hrx, htx⟩, hlen, ⟨hlast, hstart, htoggle, hhold⟩, hframes⟩

theorem Dequeued.inv {s u : State} (h : Dequeued s u) (hs : Inv s) : Inv u := by
  obtain ⟨hcfg, hrx, htx, hframes⟩ := inv_iff.1 hs
  refine inv_iff.2 ⟨h.cfg_eq ▸ hcfg, hrx.of_sameRx h.cfg_eq h.sameRx, htx.of_sameTx h.cfg_eq h.sameTx, fun f hf => ?_⟩
  rw [h.cfg_eq]
  exact hframes f (h.frames_subset hf)

theorem Noted.inv {s t : State} (h : Noted s t) (hs : Inv s) : Inv t := by
  obtain ⟨hcfg, hrx, htx, hframes⟩ := inv_iff.1 hs
  exact inv_iff.2 ⟨h.cfg_eq ▸ hcfg, hrx.of_sameRx h.cfg_eq h.sameRx, htx.of_sameTx h.cfg_eq h.sameTx,
    h.sameFrames.framesInv h.cfg_eq hframes⟩

theorem Effect.inv {s t : State} {i : Instr} (h : Effect s i t) (htime : TimeFits s.cfg i) (hs : Inv s) : Inv t := by
  obtain ⟨hcfg, hrx, htx, hframes⟩ := inv_iff.1 hs
  refine inv_iff.2 ⟨h.cfg_eq ▸ hcfg, h.rxInv hcfg htime hrx, h.txInv htime htx, ?_⟩
  obtain hsame | ⟨-, hmore⟩ := h.frames_cases htime hrx
  · exact hsame.framesInv h.cfg_eq hframes
  · exact hmore.framesInv h.cfg_eq hframes

/-- Settles O47: taking an offer keeps the invariant, and so does every effect an instruction can have at a time that
the decoder let through. -/
theorem invKeptByEveryStep : Obligations.InvKeptByEveryStep := by
  intro s t hs h
  obtain ⟨u, hdeq, hnoted | ⟨i, hsource, heffect⟩⟩ := step_cases h
  · exact hnoted.inv (hdeq.inv hs)
  · exact heffect.inv (hdeq.cfg_eq ▸ hsource.timeFits) (hdeq.inv hs)

/-- Settles O56: the pin's level is part of the invariant, and the configuration is not written. -/
theorem wakePinIsHighWhenNoWakeRuns : Obligations.WakePinIsHighWhenNoWakeRuns := by
  intro s t hs h hwst
  have hhigh : t.wakeOut = true := (invKeptByEveryStep s t hs h).wakePin hwst
  exact ⟨hhigh, fun hlevel => by rw [hhigh, step_cfg_eq h, hlevel]⟩

/-- Settles O54: only an instruction with a received byte delivers a frame, and it comes from a request word of selector
POLL. -/
theorem onlyValidFramesAreDelivered : Obligations.OnlyValidFramesAreDelivered := by
  intro s t hs h hnew
  obtain ⟨u, hdeq, hcases⟩ := step_cases h
  rw [← hdeq.trace_eq] at hnew ⊢
  obtain hnoted | ⟨i, hsource, heffect⟩ := hcases
  · exact absurd hnoted.sameFrames.2 hnew
  · obtain ⟨-, hrx, -, -⟩ := inv_iff.1 (hdeq.inv hs)
    obtain hsame | ⟨⟨b, hb⟩, f, ⟨hlen, hvalid⟩, -, hout⟩ :=
      heffect.frames_cases (hdeq.cfg_eq ▸ hsource.timeFits) hrx
    · exact absurd hsame.2 hnew
    · obtain ⟨w, d, rest, hoffer, hop, hbyte⟩ := hsource.request_of_rxByte hb
      exact ⟨⟨w, d, rest, b, hoffer, hop, hbyte⟩, f, hout, hlen, hdeq.cfg_eq ▸ hvalid⟩

/-! ### The state after reset (R39, R132) -/

/-- Settles O45: every element is as the table gives it, both buffers list no byte, and RESET finds the pin high. -/
theorem powerOnState : Obligations.PowerOnState :=
  ⟨rfl, fun _ => rfl, rfl, rfl, rfl, rfl, rfl, fun _ => rfl, rfl, rfl, rfl, rfl, rfl, fun _ => rfl⟩

/-! ### The step runs what is offered (R37, R46, R61, R66, R105) -/

theorem step_request {s : State} {w : Word} {d : PortData} {rest : List Offer} {i : Instr}
    (h : decode s.cfg (.request w d) = .ok i) :
    step { s with offers := .request w d :: rest } = exec i { s with offers := rest } := by
  simp [step, fetch, fetchRequest, h]

theorem step_report {s : State} {p : List Byte} {now : Nat} {st : Bool} {rest : List Offer} {i : Instr}
    (h : decode s.cfg (.report p now st) = .ok i) :
    step { s with offers := .report p now st :: rest } = exec i { s with offers := rest } := by
  simp [step, fetch, fetchReport, h]

theorem step_dispatch {s : State} {f : List Byte} {fs : List (List Byte)} {rest : List Offer} {i : Instr}
    (hframes : s.frames = f :: fs) (h : decode s.cfg (.notify (framePayload f)) = .ok i) :
    step { s with offers := .dispatch :: rest } = exec i { s with offers := rest, frames := fs } := by
  simp [step, fetch, fetchDispatch, hframes, h]

/-- Settles O6: a fetch takes the offer off the schedule and decodes it. -/
theorem stepRunsTheDecodedRequest : Obligations.StepRunsTheDecodedRequest :=
  ⟨fun _ _ _ _ _ => step_request, fun _ _ _ _ _ _ => step_report⟩

/-- The payload of a built frame is read back where its length fits the length byte (R57, R73). -/
theorem framePayload_build (c : Config) (a : AckSel) {p : List Byte} (h : p.length ≤ 255) :
    framePayload (build c a p) = p := by
  have hlen : frameLen (build c a p) = p.length := by
    simp [frameLen, frameByte, build, frameHead]
    omega
  rw [framePayload, hlen]
  simp [build, frameHead]

/-- A form that decodes, placed where the next step fetches, is executed in the state it was placed in; a notification
must fit a frame. -/
theorem step_place {s : State} {e : Encoded} {i : Instr} (h : decode s.cfg e = .ok i)
    (hfit : ∀ p, e = .notify p → p.length ≤ 255) : step (place e s) = exec i s := by
  cases e with
  | request w d => exact step_request h
  | report p now st => exact step_report h
  | notify p =>
    have hpayload : framePayload (build s.cfg .ack p) = p := framePayload_build s.cfg .ack (hfit p rfl)
    exact step_dispatch (s := place (.notify p) s) rfl (hpayload.symm ▸ h)

/-- A bare command byte with its operand bytes fits a frame; the open width of the NKRO bitmap is bounded by D31. -/
theorem tablePayload_length_le (w : Nat) : (tablePayload w).length ≤ 255 := by
  have hnkro : 2 + Config.reference.nkroBitmapBytes ≤ 121 := reference_wf.2.2.2
  simp only [tablePayload, List.length_cons, List.length_replicate]
  unfold zeroOperandBytes
  split <;> omega

/-- A table form that is a notification is the payload of a bare command byte (log entry 17). -/
theorem length_le_of_tableForm_notify {nbits w : Nat} {p : List Byte} (h : tableForm nbits w = .notify p) :
    p.length ≤ 255 := by
  unfold tableForm at h
  split_ifs at h
  split at h <;> cases h
  exact tablePayload_length_le w

/-- Settles O8: the table form is placed, and a placed form that decodes is what the step runs. -/
theorem placedWordIsTheNextInstruction : Obligations.PlacedWordIsTheNextInstruction := by
  intro s nbits w i hcfg h
  have hdecode : decode s.cfg (tableForm nbits w) = .ok i := by
    rw [hcfg]
    unfold decodeTableWord at h
    split at h
    case h_1 j hj => rw [hj, Option.some.inj h]
    case h_2 => cases h
  exact step_place hdecode fun p => length_le_of_tableForm_notify

end Sys2Proof.Machine

/-! PROOFS. The statements on 20_memory.md: the two agents share no element of the state, and their requests commute
(R37, R50). -/

namespace Sys2Proof.Machine

open Sys2Proof

/-! ### Each agent keeps the other's elements (R50) -/

/-- Settles O50: a POLL has a POLL's effect, and every instruction but POLL and RESET an effect of the TX agent. -/
theorem agentsShareNoState : Obligations.AgentsShareNoState := by
  refine ⟨fun s t now x h => (execPoll_effect h).sameTx, fun s t i h hpoll hreset => ?_⟩
  cases exec_effect h with
  | tx h => exact h.sameRx
  | poll => exact absurd rfl (hpoll _ _)
  | reset => exact absurd rfl (hreset _)

/-! ### An instruction beside another share of the state

`withTx o past s` is the RX share of `s` beside everything else of another state `o`, and `withRx o past s` the TX share
of `s` likewise; the observation has `past` before it. A POLL does the same beside every other share, and so does every
instruction but POLL and RESET. -/

/-- `s` with the TX agent's elements, the schedule and the issued SENDs of `o`, after the observation `past`. -/
def withTx (o : State) (past : List Obs) (s : State) : State :=
  { o with
    cfg := s.cfg, fst := s.fst, rxbuf := s.rxbuf, rxidx := s.rxidx, rxexp := s.rxexp, tLastRx := s.tLastRx,
    frames := s.frames, trace := past ++ s.trace }

/-- `s` with the RX agent's elements and the delivered frames of `o`, after the observation `past`. -/
def withRx (o : State) (past : List Obs) (s : State) : State :=
  { s with
    fst := o.fst, rxbuf := o.rxbuf, rxidx := o.rxidx, rxexp := o.rxexp, tLastRx := o.tLastRx, frames := o.frames,
    trace := past ++ s.trace }

/-- `s` before anything is observed. -/
def unobserved (s : State) : State := { s with trace := [] }

/-- A state is its RX share, taken from a state that agrees on it, beside its own other elements. -/
theorem eq_withTx_of_sameRx {s s' : State} (hcfg : s'.cfg = s.cfg) (hsame : SameRx s s')
    (hframes : s'.frames = s.frames) : s' = withTx s' s'.trace (unobserved s) := by
  obtain ⟨hfst, hbuf, hidx, hexp, hlast⟩ := hsame
  simp [withTx, unobserved, ← hcfg, ← hfst, ← hbuf, ← hidx, ← hexp, ← hlast, ← hframes]

/-- A state is its TX share, taken from a state that agrees on it, beside its own other elements. -/
theorem eq_withRx_of_sameTx {s s' : State} (hcfg : s'.cfg = s.cfg) (hsame : SameTx s s')
    (hoffers : s'.offers = s.offers) (hissued : s'.issued = s.issued) :
    s' = withRx s' s'.trace (unobserved s) := by
  obtain ⟨hwst, hpin, hbuf, hlen, hstart, htoggle, hhold⟩ := hsame
  simp [withRx, unobserved, ← hcfg, ← hwst, ← hpin, ← hbuf, ← hlen, ← hstart, ← htoggle, ← hhold, ← hoffers, ← hissued]

/-- An outcome with `f` applied to its next state. -/
def mapNext (f : State → State) : Host.Outcome State Fault Refusal → Host.Outcome State Fault Refusal
  | .next s => .next (f s)
  | .fault e => .fault e
  | .refused r => .refused r

@[simp] theorem mapNext_next (f : State → State) (s : State) : mapNext f (.next s) = .next (f s) := rfl

theorem mapNext_eq_next {f : State → State} {o : Host.Outcome State Fault Refusal} {t : State} :
    mapNext f o = .next t ↔ ∃ u, o = .next u ∧ f u = t := by
  cases o <;> simp [mapNext]

theorem outcomeOf_map (f : State → State) (r : Except Fault State) :
    outcomeOf (r.map f) = mapNext f (outcomeOf r) := by
  cases r <;> rfl

/-! #### A POLL -/

section
variable (o : State) (past : List Obs)

@[simp] theorem withTx_cfg (s : State) : (withTx o past s).cfg = s.cfg := rfl
@[simp] theorem withTx_fst (s : State) : (withTx o past s).fst = s.fst := rfl
@[simp] theorem withTx_rxidx (s : State) : (withTx o past s).rxidx = s.rxidx := rfl
@[simp] theorem withTx_rxexp (s : State) : (withTx o past s).rxexp = s.rxexp := rfl

theorem observe_withTx (ob : Obs) (s : State) :
    observe ob (withTx o past s) = withTx o past (observe ob s) := by
  simp [observe, withTx]

theorem respond_withTx (c : Code) (d : Data) (s : State) :
    respond c d (withTx o past s) = withTx o past (respond c d s) :=
  observe_withTx o past _ s

theorem emitFrame_withTx (f : List Byte) (s : State) :
    emitFrame f (withTx o past s) = withTx o past (emitFrame f s) :=
  observe_withTx o past _ { s with frames := s.frames ++ [f] }

theorem clear_withTx (s : State) : clear (withTx o past s) = withTx o past (clear s) := rfl

theorem record_withTx (b : Byte) (s : State) :
    record b (withTx o past s) = (record b s).map (withTx o past) := by
  unfold record rxWrite
  rw [withTx_cfg, withTx_rxidx]
  split <;> rfl

/-- A byte that is recorded and then moves the framer on, as in R81 and R83 to R85. -/
theorem record_map_withTx {f : State → State} (hf : ∀ u, f (withTx o past u) = withTx o past (f u)) (b : Byte)
    (s : State) : (record b (withTx o past s)).map f = ((record b s).map f).map (withTx o past) := by
  rw [record_withTx]
  cases record b s with
  | ok u => exact congrArg Except.ok (hf u)
  | error e => rfl

theorem restart_withTx (b : Byte) (s : State) :
    restart b (withTx o past s) = (restart b s).map (withTx o past) :=
  record_map_withTx o past (fun _ => by rfl) b (clear s)

theorem consumeIdle_withTx (b : Byte) (s : State) :
    consumeIdle b (withTx o past s) = (consumeIdle b s).map (withTx o past) := by
  unfold consumeIdle
  rw [withTx_cfg]
  split
  · exact restart_withTx o past b s
  · rfl

/-- The shape of the rules R83 to R85: the byte wanted is recorded and moves the framer on; `HEADER1` starts a new
frame; any other byte moves the framer by `g`. -/
theorem record_or_restart_withTx {f : State → State} (g : State → State) {wanted : Prop} [Decidable wanted]
    (hf : ∀ u, f (withTx o past u) = withTx o past (f u)) (hg : ∀ u, g (withTx o past u) = withTx o past (g u))
    (b : Byte) (s : State) :
    (if wanted then (record b (withTx o past s)).map f
      else if b = s.cfg.header1 then restart b (withTx o past s) else .ok (g (withTx o past s))) =
      (if wanted then (record b s).map f
        else if b = s.cfg.header1 then restart b s else .ok (g s)).map (withTx o past) := by
  split
  · exact record_map_withTx o past hf b s
  · split
    · exact restart_withTx o past b s
    · exact congrArg Except.ok (hg s)

theorem consumeSawHeader1_withTx (b : Byte) (s : State) :
    consumeSawHeader1 b (withTx o past s) = (consumeSawHeader1 b s).map (withTx o past) :=
  record_or_restart_withTx o past clear (fun _ => by rfl) (clear_withTx o past) b s

theorem consumeSawHeader2_withTx (b : Byte) (s : State) :
    consumeSawHeader2 b (withTx o past s) = (consumeSawHeader2 b s).map (withTx o past) :=
  record_or_restart_withTx o past id (fun _ => by rfl) (fun _ => rfl) b s

theorem consumeSawLength_withTx (b : Byte) (s : State) :
    consumeSawLength b (withTx o past s) = (consumeSawLength b s).map (withTx o past) :=
  record_or_restart_withTx o past clear (fun _ => by rfl) (clear_withTx o past) b s

theorem noEvent_withTx {r r' : Except Fault State} (h : r' = r.map (withTx o past)) :
    noEvent r' = (noEvent r).map (Prod.map (withTx o past) id) := by
  rw [h]
  cases r <;> rfl

/-- Completion delivers the same frame, or reports the same failure (R88). -/
theorem complete_withTx (s : State) :
    complete (withTx o past s) = (complete s).map (Prod.map (withTx o past) id) := by
  have hread : rxRead (withTx o past s).rxexp (withTx o past s) = rxRead s.rxexp s := rfl
  unfold complete
  rw [hread]
  cases rxRead s.rxexp s with
  | error e => rfl
  | ok f =>
    simp only [Except.map, withTx_cfg, emitFrame_withTx, clear_withTx]
    cases validate s.cfg f <;> rfl

/-- The last byte of the expected length completes the frame where it is the terminator (R86). -/
theorem completeAtEnd_withTx (b : Byte) (s : State) :
    (if s.rxidx = s.rxexp ∧ b = s.cfg.terminator then complete (withTx o past s) else .ok (withTx o past s, [])) =
      (if s.rxidx = s.rxexp ∧ b = s.cfg.terminator then complete s else .ok (s, [])).map
        (Prod.map (withTx o past) id) := by
  split
  · exact complete_withTx o past s
  · rfl

theorem consumeAccumulating_withTx (b : Byte) (s : State) :
    consumeAccumulating b (withTx o past s) = (consumeAccumulating b s).map (Prod.map (withTx o past) id) := by
  unfold consumeAccumulating
  rw [withTx_rxidx, withTx_rxexp]
  split
  · rw [record_withTx]
    cases record b s with
    | error e => rfl
    | ok u => exact completeAtEnd_withTx o past b u
  · -- a byte that is discarded is treated as a byte in Idle (R87)
    exact noEvent_withTx o past (consumeIdle_withTx o past b s)

theorem consume_withTx (b : Byte) (s : State) :
    consume b (withTx o past s) = (consume b s).map (Prod.map (withTx o past) id) := by
  unfold consume
  rw [withTx_fst]
  cases s.fst
  case idle => exact noEvent_withTx o past (consumeIdle_withTx o past b s)
  case sawHeader1 => exact noEvent_withTx o past (consumeSawHeader1_withTx o past b s)
  case sawHeader2 => exact noEvent_withTx o past (consumeSawHeader2_withTx o past b s)
  case sawLength => exact noEvent_withTx o past (consumeSawLength_withTx o past b s)
  case accumulating => exact consumeAccumulating_withTx o past b s

theorem inactivityCheck_withTx (now : Nat) (s : State) :
    inactivityCheck now (withTx o past s) = Prod.map (withTx o past) id (inactivityCheck now s) := by
  obtain ⟨hdue, heq⟩ | ⟨hdue, heq⟩ := inactivityCheck_cases now s <;> rw [heq]
  · exact if_pos hdue
  · exact if_neg hdue

theorem pollByte_withTx (now : Nat) (x : Option Byte) (s : State) :
    pollByte now x (withTx o past s) = (pollByte now x s).map (Prod.map (withTx o past) id) := by
  cases x with
  | none => rfl
  | some b => exact consume_withTx o past b { s with tLastRx := now }

/-- A POLL answers the same beside every TX share (R50). -/
theorem execPoll_withTx (now : Nat) (x : Option Byte) (s : State) :
    execPoll now x (withTx o past s) = mapNext (withTx o past) (execPoll now x s) := by
  unfold execPoll
  rw [← outcomeOf_map, inactivityCheck_withTx]
  simp only [Prod.map_fst, Prod.map_snd, id_eq, pollByte_withTx]
  cases pollByte now x (inactivityCheck now s).1 with
  | error e => rfl
  | ok r => exact congrArg (fun t => outcomeOf (.ok t)) (respond_withTx o past _ _ r.1)

end

/-! #### An instruction of the TX agent or of no agent -/

section
variable (o : State) (past : List Obs)

@[simp] theorem withRx_cfg (s : State) : (withRx o past s).cfg = s.cfg := rfl
@[simp] theorem withRx_wst (s : State) : (withRx o past s).wst = s.wst := rfl
@[simp] theorem withRx_wakeOut (s : State) : (withRx o past s).wakeOut = s.wakeOut := rfl
@[simp] theorem withRx_tStart (s : State) : (withRx o past s).tStart = s.tStart := rfl
@[simp] theorem withRx_tToggle (s : State) : (withRx o past s).tToggle = s.tToggle := rfl
@[simp] theorem withRx_tHold (s : State) : (withRx o past s).tHold = s.tHold := rfl

theorem observe_withRx (ob : Obs) (s : State) :
    observe ob (withRx o past s) = withRx o past (observe ob s) := by
  simp [observe, withRx]

theorem respond_withRx (c : Code) (d : Data) (s : State) :
    respond c d (withRx o past s) = withRx o past (respond c d s) :=
  observe_withRx o past _ s

theorem hold_withRx (s : State) : hold (withRx o past s) = withRx o past (hold s) := observe_withRx o past _ s

theorem emitTx_withRx (bs : List Byte) (s : State) : emitTx bs (withRx o past s) = withRx o past (emitTx bs s) :=
  observe_withRx o past _ s

theorem emitCall_withRx (c : Call) (s : State) : emitCall c (withRx o past s) = withRx o past (emitCall c s) :=
  observe_withRx o past _ s

theorem setWakeOut_withRx (now : Nat) (level : Bool) (s : State) :
    setWakeOut now level (withRx o past s) = withRx o past (setWakeOut now level s) := by
  unfold setWakeOut
  rw [withRx_wakeOut]
  split
  · rfl
  · exact observe_withRx o past _ { s with wakeOut := level }

theorem txLoad_withRx (bs : List Byte) (s : State) :
    txLoad bs (withRx o past s) = (txLoad bs s).map (withRx o past) := by
  unfold txLoad
  rw [withRx_cfg]
  split <;> rfl

theorem transmit_withRx (s : State) : transmit (withRx o past s) = (transmit s).map (withRx o past) := by
  have hread : txRead (withRx o past s) = txRead s := rfl
  unfold transmit
  rw [hread]
  cases txRead s with
  | error e => rfl
  | ok bs => exact congrArg Except.ok (emitTx_withRx o past bs s)

theorem enterWake_withRx (now : Nat) (s : State) :
    enterWake now (withRx o past s) = withRx o past (enterWake now s) := by
  unfold enterWake
  rw [setWakeOut_withRx]
  rfl

theorem endWake_withRx (now : Nat) (s : State) : endWake now (withRx o past s) = withRx o past (endWake now s) := by
  unfold endWake
  rw [setWakeOut_withRx]
  rfl

theorem wakeStart_withRx (now : Nat) (st : Bool) (s : State) :
    wakeStart now st (withRx o past s) = (wakeStart now st s).map (withRx o past) := by
  unfold wakeStart
  rw [withRx_cfg]
  split
  · rw [transmit_withRx]
    cases transmit s with
    | error e => rfl
    | ok u => exact congrArg Except.ok (respond_withRx o past _ _ u)
  · rw [enterWake_withRx, respond_withRx]
    rfl

/-- The load and the wake start that SEND and SEND_RAW share. -/
theorem load_wakeStart_withRx (bs : List Byte) (now : Nat) (st : Bool) (s : State) :
    outcomeOf ((txLoad bs (withRx o past s)).bind (wakeStart now st)) =
      mapNext (withRx o past) (outcomeOf ((txLoad bs s).bind (wakeStart now st))) := by
  rw [← outcomeOf_map, txLoad_withRx]
  cases txLoad bs s with
  | error e => rfl
  | ok u => exact congrArg outcomeOf (wakeStart_withRx o past now st u)

theorem sendRequest_withRx (a : AckSel) (p : List Byte) (now : Nat) (st : Bool) (s : State) :
    sendRequest a p now st (withRx o past s) = mapNext (withRx o past) (sendRequest a p now st s) := by
  unfold sendRequest
  rw [withRx_wst, withRx_cfg]
  split
  · rw [hold_withRx, mapNext_next]
  · split
    · rw [respond_withRx, mapNext_next]
    · exact load_wakeStart_withRx o past _ now st s

theorem execSendRaw_withRx (bs : List Byte) (now : Nat) (st : Bool) (s : State) :
    execSendRaw bs now st (withRx o past s) = mapNext (withRx o past) (execSendRaw bs now st s) := by
  unfold execSendRaw
  rw [withRx_wst, withRx_cfg]
  split
  · rw [hold_withRx, mapNext_next]
  · split
    · rw [respond_withRx, mapNext_next]
    · exact load_wakeStart_withRx o past bs now st s

theorem buildRequest_withRx (a : AckSel) (p : List Byte) (s : State) :
    buildRequest a p (withRx o past s) = mapNext (withRx o past) (buildRequest a p s) := by
  unfold buildRequest
  rw [withRx_wst, withRx_cfg]
  split
  · rw [hold_withRx, mapNext_next]
  · split
    · rw [respond_withRx, mapNext_next]
    · dsimp only
      rw [← outcomeOf_map, txLoad_withRx]
      cases txLoad (build s.cfg a p) s with
      | error e => rfl
      | ok u => exact congrArg (fun t => outcomeOf (.ok t)) (respond_withRx o past _ _ u)

theorem wakeSuccess_withRx (now : Nat) (s : State) :
    wakeSuccess now (withRx o past s) = (wakeSuccess now s).map (withRx o past) := by
  unfold wakeSuccess
  rw [setWakeOut_withRx, transmit_withRx]
  cases transmit (setWakeOut now true s) with
  | error e => rfl
  | ok u => exact congrArg Except.ok (respond_withRx o past _ _ { u with wst := .idle })

theorem toggleStep_withRx (now : Nat) (s : State) :
    toggleStep now (withRx o past s) = withRx o past (toggleStep now s) := by
  unfold toggleStep
  rw [withRx_cfg, withRx_tToggle, withRx_wakeOut, setWakeOut_withRx]
  split <;> rfl

theorem sampleHold_withRx (now : Nat) (st : Bool) (s : State) :
    sampleHold now st (withRx o past s) = withRx o past (sampleHold now st s) := by
  unfold sampleHold
  rw [withRx_cfg]
  split <;> rfl

/-- Success, timeout and toggle are decided by the TX share alone (R98). -/
theorem wakeIteration_withRx (now : Nat) (st : Bool) (s : State) :
    wakeIteration now st (withRx o past s) = (wakeIteration now st s).map (withRx o past) := by
  unfold wakeIteration
  simp only [sampleHold_withRx, withRx_cfg, withRx_tHold, withRx_tStart]
  split
  · exact wakeSuccess_withRx o past now _
  · split
    · rw [endWake_withRx, respond_withRx]; rfl
    · rw [toggleStep_withRx, respond_withRx]; rfl

theorem execTick_withRx (now : Nat) (st : Bool) (s : State) :
    execTick now st (withRx o past s) = mapNext (withRx o past) (execTick now st s) := by
  unfold execTick
  rw [withRx_wst]
  cases s.wst with
  | idle => exact congrArg _ (respond_withRx o past _ _ s)
  | waking => exact (congrArg outcomeOf (wakeIteration_withRx o past now st s)).trans (outcomeOf_map _ _)

theorem linkStatus_withRx (rest : List Byte) (s : State) :
    linkStatus rest (withRx o past s) = withRx o past (linkStatus rest s) := by
  unfold linkStatus
  cases rest with
  | nil => rfl
  | cons sub _ =>
    simp only [linkHealthy, linkDegraded, linkPoor, withRx_cfg, emitCall_withRx]
    split_ifs <;> rfl

/-- Every instruction but POLL and RESET answers the same beside every RX share (R50). -/
theorem exec_withRx {i : Instr} (hpoll : ∀ now x, i ≠ .poll now x) (hreset : ∀ now, i ≠ .reset now) (s : State) :
    exec i (withRx o past s) = mapNext (withRx o past) (exec i s) := by
  cases i with
  | poll => exact absurd rfl (hpoll _ _)
  | reset => exact absurd rfl (hreset _)
  | crc | validate => exact congrArg _ (respond_withRx o past _ _ s)
  | buildAck | buildNoack => exact buildRequest_withRx o past _ _ s
  | sendRaw => exact execSendRaw_withRx o past _ _ _ s
  | sendAck | sendNoack | cmdSetPairing | cmdOpenAdv | cmdCloseAdv | cmdKeyboard | cmdNkro | cmdConsumer | cmdSystem
  | cmdMouse | cmdRawHidOut => exact sendRequest_withRx o past _ _ _ _ s
  | tick => exact execTick_withRx o past _ _ s
  | cmdLed => rfl
  | cmdRawHidIn => exact congrArg _ (emitCall_withRx o past _ s)
  | cmdLinkStatusA1 rest | cmdLinkStatusA2 rest | cmdLinkStatusA3 rest | cmdLinkStatusA4 rest
  | cmdLinkStatusA5 rest | cmdLinkStatusA7 rest => exact congrArg _ (linkStatus_withRx o past rest s)

end

/-! ### The two agents' requests commute (R50, R136) -/

/-- A POLL that answers from `s` makes one RX share `r`, and observes one list, from every state with the RX share
of `s`. -/
theorem exec_poll_of_sameRx {now : Nat} {x : Option Byte} {s t : State} (h : exec (.poll now x) s = .next t) :
    ∃ r, ∀ s', s'.cfg = s.cfg → SameRx s s' → s'.frames = s.frames →
      exec (.poll now x) s' = .next (withTx s' s'.trace r) := by
  rw [eq_withTx_of_sameRx (s := s) rfl ⟨rfl, rfl, rfl, rfl, rfl⟩ rfl] at h
  obtain ⟨r, hr, -⟩ := mapNext_eq_next.1 ((execPoll_withTx _ _ now x _).symm.trans h)
  refine ⟨r, fun s' hcfg hsame hframes => ?_⟩
  calc exec (.poll now x) s'
      = exec (.poll now x) (withTx s' s'.trace (unobserved s)) :=
        congrArg _ (eq_withTx_of_sameRx hcfg hsame hframes)
    _ = mapNext (withTx s' s'.trace) (execPoll now x (unobserved s)) := execPoll_withTx ..
    _ = .next (withTx s' s'.trace r) := by rw [hr, mapNext_next]

/-- An instruction but POLL and RESET that answers from `s` makes one TX share `d`, and observes one list, from every
state with the TX share of `s`. -/
theorem exec_of_sameTx {i : Instr} {s t : State} (hpoll : ∀ now x, i ≠ .poll now x) (hreset : ∀ now, i ≠ .reset now)
    (h : exec i s = .next t) :
    ∃ d, ∀ s', s'.cfg = s.cfg → SameTx s s' → s'.offers = s.offers → s'.issued = s.issued →
      exec i s' = .next (withRx s' s'.trace d) := by
  rw [eq_withRx_of_sameTx (s := s) rfl ⟨rfl, rfl, rfl, rfl, rfl, rfl, rfl⟩ rfl rfl] at h
  obtain ⟨d, hd, -⟩ := mapNext_eq_next.1 ((exec_withRx _ _ hpoll hreset _).symm.trans h)
  refine ⟨d, fun s' hcfg hsame hoffers hissued => ?_⟩
  calc exec i s'
      = exec i (withRx s' s'.trace (unobserved s)) :=
        congrArg _ (eq_withRx_of_sameTx hcfg hsame hoffers hissued)
    _ = mapNext (withRx s' s'.trace) (exec i (unobserved s)) := exec_withRx _ _ hpoll hreset _
    _ = .next (withRx s' s'.trace d) := by rw [hd, mapNext_next]

theorem exec_cfg_eq {i : Instr} {s t : State} (h : exec i s = .next t) : t.cfg = s.cfg := (exec_effect h).cfg_eq

/-- Settles O51: the POLL makes its RX share `r` and the instruction its TX share `d`, each beside whatever the other
has made, so both orders end with `r` beside `d`. -/
theorem agentsCommute : Obligations.AgentsCommute := by
  intro s t u now x i hpoll hreset ht hu
  obtain ⟨r, hr⟩ := exec_poll_of_sameRx ht
  obtain ⟨d, hd⟩ := exec_of_sameTx hpoll hreset hu
  obtain rfl : t = withTx s s.trace r :=
    Host.Outcome.next.inj (ht.symm.trans (hr s rfl ⟨rfl, rfl, rfl, rfl, rfl⟩ rfl))
  obtain rfl : u = withRx (withTx s s.trace r) (s.trace ++ r.trace) d :=
    Host.Outcome.next.inj (hu.symm.trans (hd _ rfl ⟨rfl, rfl, rfl, rfl, rfl, rfl, rfl⟩ rfl rfl))
  have hrcfg : r.cfg = s.cfg := exec_cfg_eq (t := withTx s s.trace r) ht
  have hdcfg : d.cfg = r.cfg := exec_cfg_eq (s := withTx s s.trace r) (t := withRx _ _ d) hu
  have hdone : exec i s = .next (withRx s s.trace d) :=
    hd s hrcfg.symm ⟨rfl, rfl, rfl, rfl, rfl, rfl, rfl⟩ rfl rfl
  have hpolled : exec (.poll now x) (withRx s s.trace d) =
      .next (withTx (withRx s s.trace d) (s.trace ++ d.trace) r) :=
    hr (withRx s s.trace d) (hdcfg.trans hrcfg) ⟨rfl, rfl, rfl, rfl, rfl⟩ rfl
  exact ⟨_, _, r.trace, d.trace, hdone, hpolled, rfl, rfl, rfl, by simp [withTx, withRx, hdcfg]⟩

end Sys2Proof.Machine

/-! PROOFS. The statements on 30_encoding.md: decode and encode agree (R60 to R62, R104, R110 to R117), the request
words that decode (R64) and the illegal ones (R63). -/

namespace Sys2Proof.Machine

open Sys2Proof

/-! ### The two bytes of a word (R43, R44) and sign extension (R10) -/

@[simp] theorem loByte_wordOfBytes (lo hi : Byte) : loByte (wordOfBytes lo hi) = lo := by
  ext i h
  have hlt : i < 16 := by omega
  simp [loByte, wordOfBytes, h, hlt]

@[simp] theorem hiByte_wordOfBytes (lo hi : Byte) : hiByte (wordOfBytes lo hi) = hi := by
  ext i h
  have hhigh : 8 + i < 16 := by omega
  simp [hiByte, wordOfBytes, h, hhigh]

@[simp] theorem wordOfBytes_loByte_hiByte (v : Word) : wordOfBytes (loByte v) (hiByte v) = v := by
  ext i h
  by_cases hlow : i < 8
  · simp [wordOfBytes, loByte, hiByte, hlow, h]
  · have hlt : i - 8 < 8 := by omega
    have hadd : 8 + (i - 8) = i := by omega
    simp [wordOfBytes, loByte, hiByte, hlow, h, hlt, hadd]

theorem loByte_sext16 (b : Byte) : loByte (sext16 b) = b := by
  ext i h
  have hlt : i < 16 := by omega
  simp [loByte, sext16, BitVec.getElem_signExtend, h, hlt]

theorem wordOfBytes_hiByte_sext16 (b : Byte) : wordOfBytes b (hiByte (sext16 b)) = sext16 b := by
  have h := wordOfBytes_loByte_hiByte (sext16 b)
  rwa [loByte_sext16] at h

/-- A number read from a byte names the byte. -/
theorem byte_eq_ofNat {b : Byte} {n : Nat} (h : b.toNat = n) : b = BitVec.ofNat 8 n := by
  rw [← h, BitVec.ofNat_toNat, BitVec.setWidth_eq]

/-! ### The fields of a request word (R61) -/

theorem reqOp_eq (w : Word) : reqOp w = w.toNat % 2 ^ 8 := by simp [reqOp]

theorem toNat_reqA (w : Word) : (reqA w).toNat = w.toNat / 2 ^ 8 % 2 := by
  rw [reqA, BitVec.getLsbD, Nat.toNat_testBit]

theorem reqRes_eq (w : Word) : reqRes w = w.toNat / 2 ^ 9 := by
  have hlt : w.toNat < 2 ^ 16 := w.isLt
  simp only [reqRes, BitVec.extractLsb'_toNat, Nat.shiftRight_eq_div_pow]
  omega

/-- The ack selector that field A of a request word stands for (R61). -/
def selOf : Bool → AckSel
  | false => .ack
  | true => .noack

/-- A request word whose RES is 0 is made of its other two fields. -/
theorem eq_requestWord {w : Word} (hres : reqRes w = 0) : w = requestWord (reqOp w) (selOf (reqA w)) := by
  have hop := reqOp_eq w
  have ha := toNat_reqA w
  rw [reqRes_eq] at hres
  apply BitVec.eq_of_toNat_eq
  cases h : reqA w
  case false =>
    rw [h, Bool.toNat_false] at ha
    simp only [selOf, requestWord, BitVec.toNat_ofNat]
    omega
  case true =>
    rw [h, Bool.toNat_true] at ha
    simp only [selOf, requestWord, BitVec.toNat_ofNat]
    omega

/-! ### Decoding an encoded instruction -/

theorem sample_of_timeOk {c : Config} {now : Nat} (h : c.timeOk now = true) : c.sample now = now :=
  Nat.mod_eq_of_lt (of_decide_eq_true h)

theorem timeOk_and_of_wellFormed {c : Config} {now : Nat} {p : Prop} [Decidable p]
    (h : (c.timeOk now && decide p) = true) : c.sample now = now ∧ p := by
  obtain ⟨htime, hp⟩ := Bool.and_eq_true_iff.1 h
  exact ⟨sample_of_timeOk htime, of_decide_eq_true hp⟩

/-- Settles O1: the decoder finds the row of the word or command byte that the encoder wrote. What is left is that a
time of the width of the time input is not reduced, that a report of its fixed width passes the check of the layout, and
that the two bytes of a usage or of a sign-extended coordinate are put together again. -/
theorem decodeOfEncodeIsTheInstruction : Obligations.DecodeOfEncodeIsTheInstruction := by
  intro c i h
  cases i with
  | crc | buildAck | buildNoack | validate => rfl
  | sendAck _ now | sendNoack _ now | sendRaw _ now | poll now | tick now | reset now | cmdSetPairing _ _ now
  | cmdOpenAdv _ _ now | cmdCloseAdv now =>
    have hnow : c.sample now = now := sample_of_timeOk h
    conv_rhs => rw [← hnow]
    rfl
  | cmdKeyboard | cmdNkro =>
    obtain ⟨hnow, hlen⟩ := timeOk_and_of_wellFormed h
    simp [decode, encode, decodeReport, hnow, hlen]
  | cmdConsumer _ now | cmdSystem _ now =>
    have hnow : c.sample now = now := sample_of_timeOk h
    simp [decode, encode, decodeReport, hnow]
  | cmdMouse _ _ _ _ _ now =>
    have hnow : c.sample now = now := sample_of_timeOk h
    simp [decode, encode, decodeReport, hnow, loByte_sext16, wordOfBytes_hiByte_sext16]
  | cmdRawHidOut =>
    obtain ⟨hnow, -⟩ := timeOk_and_of_wellFormed h
    simp [decode, encode, decodeReport, hnow]
  | cmdLed | cmdRawHidIn | cmdLinkStatusA1 | cmdLinkStatusA2 | cmdLinkStatusA3 | cmdLinkStatusA4 | cmdLinkStatusA5
  | cmdLinkStatusA7 => rfl

/-! ### Encoding what a form decodes to -/

/-- The operands that R62 lists for a request of selector `op`, the time as the time input carries it; every other
operand 0, empty or none. -/
def listedOperands (c : Config) (op : Nat) (d : PortData) : PortData where
  bytes := if op ∈ [0x01, 0x02, 0x03, 0x04, 0x05] then d.bytes else []
  now := if op ∈ [0x04, 0x05, 0x06, 0x07, 0x08] then c.sample d.now else 0
  status := if op ∈ [0x04, 0x05, 0x07] then d.status else false
  rxByte := if op = 0x06 then d.rxByte else none

theorem encode_of_decodeRequest {c : Config} {w : Word} {d : PortData} {i : Instr}
    (h : decodeRequest c w d = .ok i) : encode i = .request w (listedOperands c (reqOp w) d) := by
  unfold decodeRequest at h
  split_ifs at h with hres
  have hw : w = requestWord (reqOp w) (selOf (reqA w)) := eq_requestWord (not_not.1 hres)
  -- one case per row of the opcode table: its selector and its A make the word
  split at h <;> cases h
  all_goals next hop ha =>
    rw [hop, ha] at hw
    rw [hop, hw]
    rfl

theorem encode_of_decodeReport {c : Config} {p : List Byte} {now : Nat} {st : Bool} {i : Instr}
    (h : decodeReport c p now st = .ok i) : encode i = .report p (c.sample now) st := by
  unfold decodeReport at h
  cases p with
  | nil => cases h
  | cons cmd rest =>
    dsimp only at h
    split at h
    -- 0x14 and 0x15: two bytes
    case h_1 hcmd | h_2 hcmd =>
      obtain rfl := byte_eq_ofNat hcmd
      split at h <;> cases h
      rfl
    -- 0x16: the byte 0x00
    case h_3 hcmd =>
      obtain rfl := byte_eq_ofNat hcmd
      split_ifs at h with hrest
      cases h
      rw [hrest]
      rfl
    -- 0x21: eight bytes
    case h_4 hcmd =>
      obtain rfl := byte_eq_ofNat hcmd
      split_ifs at h
      cases h
      rfl
    -- 0x22: the modifiers and a bitmap of the fixed width
    case h_5 hcmd =>
      obtain rfl := byte_eq_ofNat hcmd
      split at h
      · split_ifs at h
        cases h
        rfl
      · cases h
    -- 0x23 and 0x24: the two bytes of a usage
    case h_6 hcmd | h_7 hcmd =>
      obtain rfl := byte_eq_ofNat hcmd
      split at h <;> cases h
      simp [encode]
    -- 0x25: two coordinates that are sign extensions of their low bytes
    case h_8 hcmd =>
      obtain rfl := byte_eq_ofNat hcmd
      split at h
      · split_ifs at h with hsext
        obtain ⟨hx, hy⟩ := hsext
        cases h
        simp [encode, ← hx, ← hy]
      · cases h
    -- 0x27: any bytes
    case h_9 hcmd =>
      obtain rfl := byte_eq_ofNat hcmd
      cases h
      rfl
    case h_10 => cases h

theorem encode_of_decodeNotify {p : List Byte} {i : Instr} (h : decodeNotify p = .ok i) : encode i = .notify p := by
  unfold decodeNotify at h
  cases p with
  | nil => cases h
  | cons cmd rest =>
    dsimp only at h
    split at h <;> cases h
    -- one case per command byte of R104
    all_goals next hcmd =>
      obtain rfl := byte_eq_ofNat hcmd
      rfl

/-- Settles O2: a request that decodes is the encoding with the operands listed for it, and the two other forms are
exactly their encodings. -/
theorem decodedFormsAreTheirEncodings : Obligations.DecodedFormsAreTheirEncodings := by
  refine ⟨fun c w d i h => ⟨listedOperands c (reqOp w) d, encode_of_decodeRequest h, ?_⟩,
    fun _ _ _ _ _ => encode_of_decodeReport, fun _ _ _ => encode_of_decodeNotify⟩
  exact ⟨fun hop => if_pos hop, fun hop => if_pos hop, fun hop => if_pos hop, fun hop => if_pos hop⟩

/-! ### The request words that decode (R64) -/

/-- The words that R64 accepts. -/
def Accepted (w : Word) : Prop :=
  reqRes w = 0 ∧ (reqOp w ∈ [0x02, 0x04] ∨ (reqOp w ∈ [0x01, 0x03, 0x05, 0x06, 0x07, 0x08] ∧ reqA w = false))

theorem accepted_of_decodeRequest {c : Config} {w : Word} {d : PortData} {i : Instr}
    (h : decodeRequest c w d = .ok i) : Accepted w := by
  unfold decodeRequest at h
  split_ifs at h with hres
  refine ⟨not_not.1 hres, ?_⟩
  split at h
  case h_11 => cases h
  all_goals next hop ha => simp [hop, ha]

theorem decodeRequest_of_accepted {w : Word} (h : Accepted w) (c : Config) (d : PortData) :
    ∃ i, decodeRequest c w d = .ok i := by
  obtain ⟨hres, hop⟩ := h
  have hw : w = requestWord (reqOp w) (selOf (reqA w)) := eq_requestWord hres
  simp only [List.mem_cons, List.not_mem_nil, or_false] at hop
  obtain (hop | hop) | ⟨hop | hop | hop | hop | hop | hop, ha⟩ := hop
  -- BUILD and SEND take either value of A
  case inl.inl | inl.inr =>
    rw [hw, hop]
    cases reqA w <;> exact ⟨_, rfl⟩
  all_goals
    rw [hw, hop, ha]
    exact ⟨_, rfl⟩

/-- Settles O3: each direction is a lemma of its own, about one row of R64 at a time. -/
theorem requestDecodeAcceptsExactlyTheListedWords : Obligations.RequestDecodeAcceptsExactlyTheListedWords :=
  fun c _ d => ⟨fun ⟨_, h⟩ => accepted_of_decodeRequest h, fun h => decodeRequest_of_accepted h c d⟩

/-! ### The illegal request words (R63) -/

/-- R63 makes illegal what R64 does not accept. -/
theorem accepted_iff_not_illegal (w : Word) :
    Accepted w ↔
      ¬ (reqOp w = 0 ∨ 9 ≤ reqOp w ∨ reqRes w ≠ 0 ∨ (reqA w = true ∧ reqOp w ≠ 2 ∧ reqOp w ≠ 4)) := by
  simp only [Accepted, List.mem_cons, List.not_mem_nil, or_false]
  cases reqA w <;> simp only [reduceCtorEq, and_true, and_false, false_and, true_and, or_false] <;> omega

/-- A word that does not decode is taken off the schedule and answered, and nothing else changes. -/
theorem step_illegal {s : State} {w : Word} {d : PortData} {rest : List Offer}
    (h : ¬ ∃ i, decode s.cfg (.request w d) = .ok i) :
    step { s with offers := .request w d :: rest } = .next (illegal { s with offers := rest }) := by
  cases hdecode : decode s.cfg (.request w d) with
  | ok i => exact absurd ⟨i, hdecode⟩ h
  | error e => simp [step, fetch, fetchRequest, hdecode]

/-- Settles O4: an illegal word is not accepted, so it does not decode; every other word is accepted. -/
theorem illegalRequestWordsChangeNothing : Obligations.IllegalRequestWordsChangeNothing := by
  intro s w d rest
  constructor
  · intro hillegal
    apply step_illegal
    rintro ⟨i, h⟩
    exact (accepted_iff_not_illegal w).1 (accepted_of_decodeRequest h) hillegal
  · intro hlegal
    exact decodeRequest_of_accepted ((accepted_iff_not_illegal w).2 hlegal) s.cfg d

/-! ### Words and command bytes of the opcode table (R60, R62, R63) -/

/-- Settles O5: the decoder computes on each of them; none reads an OPEN parameter. -/
theorem writtenOutWordsDecode : Obligations.WrittenOutWordsDecode :=
  ⟨rfl, rfl, rfl, rfl, rfl, rfl, rfl, rfl, rfl, rfl⟩

end Sys2Proof.Machine

/-! PROOFS. The statements on 40_crc.md: the bit step (R67), the byte step, which is linear and one-to-one in each
operand (R68), the laws of the span function (R71) and the CRC request (R72). -/

namespace Sys2Proof.Machine

open Sys2Proof

/-! ### The bit step (R67) -/

/-- Whichever bit falls out, the step is a shift and an exclusive or with a mask: the form in which it is linear. -/
theorem crcBit_eq_xor_mask (c : Config) (v : Word) :
    crcBit c v = (v >>> 1) ^^^ (if v.getLsbD 0 then c.crcPoly else 0) := by
  unfold crcBit
  split <;> simp

theorem crcBit_of_bit0_eq_false (c : Config) {v : Word} (h : v.getLsbD 0 = false) : crcBit c v = v >>> 1 :=
  if_neg (ne_true_of_eq_false h)

theorem crcBit_xor (c : Config) (u v : Word) : crcBit c (u ^^^ v) = crcBit c u ^^^ crcBit c v := by
  have hmask : (if (u ^^^ v).getLsbD 0 then c.crcPoly else 0) =
      (if u.getLsbD 0 then c.crcPoly else 0) ^^^ (if v.getLsbD 0 then c.crcPoly else 0) := by
    rw [BitVec.getLsbD_xor]
    cases u.getLsbD 0 <;> cases v.getLsbD 0 <;> simp
  simp only [crcBit_eq_xor_mask, hmask, BitVec.ushiftRight_xor_distrib]
  ac_rfl

/-- The shift brings a 0 into bit 15, so that bit of the result tells whether the polynomial entered. -/
theorem crcBit_getLsbD_15 {c : Config} (hpoly : c.crcPoly.getLsbD 15 = true) (v : Word) :
    (crcBit c v).getLsbD 15 = v.getLsbD 0 := by
  rw [crcBit_eq_xor_mask, BitVec.getLsbD_xor]
  cases v.getLsbD 0 <;> simp [hpoly]

/-- Bit 15 of the result gives back the bit shifted out, and with it the other fifteen. -/
theorem crcBit_injective {c : Config} (hpoly : c.crcPoly.getLsbD 15 = true) : Function.Injective (crcBit c) := by
  intro u v h
  have hbit0 : u.getLsbD 0 = v.getLsbD 0 := by rw [← crcBit_getLsbD_15 hpoly u, h, crcBit_getLsbD_15 hpoly v]
  have hshift : u >>> 1 = v >>> 1 := by
    rw [crcBit_eq_xor_mask, crcBit_eq_xor_mask, hbit0] at h
    exact (BitVec.xor_left_inj _).1 h
  apply BitVec.eq_of_getLsbD_eq
  rintro (_ | i) hi
  · exact hbit0
  · simpa [Nat.add_comm] using congrArg (·.getLsbD i) hshift

/-- Settles O10: the branch is the definition's, and bit 15 is read off the masked form of the step. -/
theorem crcBitStep : Obligations.CrcBitStep :=
  ⟨fun _ v => ⟨rfl, fun hpoly => crcBit_getLsbD_15 hpoly v⟩, rfl, rfl⟩

/-! ### Bit steps in a row -/

theorem crcBits_xor (c : Config) (n : Nat) (u v : Word) :
    crcBits c n (u ^^^ v) = crcBits c n u ^^^ crcBits c n v := by
  induction n generalizing u v with
  | zero => rfl
  | succ n ih => rw [crcBits, crcBit_xor, ih, crcBits, crcBits]

theorem crcBits_injective {c : Config} (hpoly : c.crcPoly.getLsbD 15 = true) (n : Nat) :
    Function.Injective (crcBits c n) := by
  induction n with
  | zero => exact fun _ _ h => h
  | succ n ih => exact ih.comp (crcBit_injective hpoly)

/-- As long as only zeros fall out, the polynomial does not enter and the bit steps are a shift. -/
theorem crcBits_of_low_bits_zero (c : Config) {n : Nat} {v : Word} (h : ∀ i < n, v.getLsbD i = false) :
    crcBits c n v = v >>> n := by
  induction n generalizing v with
  | zero => exact (BitVec.ushiftRight_zero v).symm
  | succ n ih =>
    have hrest : ∀ i < n, (v >>> 1).getLsbD i = false := fun i hi => by
      rw [BitVec.getLsbD_ushiftRight]
      exact h (1 + i) (by omega)
    rw [crcBits, crcBit_of_bit0_eq_false c (h 0 n.succ_pos), ih hrest, ← BitVec.shiftRight_add, Nat.add_comm]

/-! ### The byte step (R68) -/

theorem loByte_zeroExtend (b : Byte) : loByte (b.zeroExtend 16) = b := by
  ext i h
  have hlt : i < 16 := by omega
  simp [loByte, h, hlt]

/-- Settles O13: the byte is widened and added in linearly, and each of the eight bit steps is linear. -/
theorem crcByteIsLinear : Obligations.CrcByteIsLinear := by
  intro c u v a b
  have hin : (u ^^^ v) ^^^ (a ^^^ b).zeroExtend 16 = (u ^^^ a.zeroExtend 16) ^^^ (v ^^^ b.zeroExtend 16) := by
    rw [BitVec.zeroExtend, BitVec.setWidth_xor]
    ac_rfl
  rw [crcByte, hin, crcBits_xor, crcByte, crcByte]

theorem crcByte_left_injective {c : Config} (hpoly : c.crcPoly.getLsbD 15 = true) (b : Byte) :
    Function.Injective (crcByte c · b) :=
  fun _ _ h => (BitVec.xor_left_inj _).1 (crcBits_injective hpoly 8 h)

theorem crcByte_right_injective {c : Config} (hpoly : c.crcPoly.getLsbD 15 = true) (v : Word) :
    Function.Injective (crcByte c v) := by
  intro a b h
  have hwide : a.zeroExtend 16 = b.zeroExtend 16 :=
    (BitVec.xor_right_inj _).1 (crcBits_injective hpoly 8 h)
  rw [← loByte_zeroExtend a, hwide, loByte_zeroExtend]

/-- The low byte of a CRC value cancels itself, which leaves the high byte to be shifted down. -/
theorem crcByte_loByte (c : Config) (v : Word) : crcByte c v (loByte v) = (hiByte v).zeroExtend 16 := by
  have hlow : ∀ i < 8, (v ^^^ (loByte v).zeroExtend 16).getLsbD i = false := fun i hi => by
    have hlt : i < 16 := by omega
    simp [loByte, hi, hlt]
  rw [crcByte, crcBits_of_low_bits_zero c hlow]
  ext i hi
  have hhigh : v.getLsbD (8 + i) = true → i < 8 := fun h => by
    have := BitVec.lt_of_getLsbD h
    omega
  simpa [loByte, hiByte] using hhigh

theorem crcByte_zeroExtend_self (c : Config) (b : Byte) : crcByte c (b.zeroExtend 16) b = 0 := by
  rw [crcByte, BitVec.xor_self, crcBits_of_low_bits_zero c (by simp)]
  rfl

/-! ### The span function (R69, R71) -/

theorem crc16_append (c : Config) (l r : List Byte) : crc16 c (l ++ r) = crcFold c (crc16 c l) r :=
  List.foldl_append

/-- A CRC value fed its own two bytes, low byte first, is used up. -/
theorem crcFold_own_bytes (c : Config) (v : Word) : crcFold c v [loByte v, hiByte v] = 0 :=
  calc crcFold c v [loByte v, hiByte v]
      = crcByte c (crcByte c v (loByte v)) (hiByte v) := rfl
    _ = crcByte c ((hiByte v).zeroExtend 16) (hiByte v) := by rw [crcByte_loByte]
    _ = 0 := crcByte_zeroExtend_self c _

theorem crcFold_injective {c : Config} (hpoly : c.crcPoly.getLsbD 15 = true) (bs : List Byte) :
    Function.Injective (crcFold c · bs) := by
  induction bs with
  | nil => exact fun _ _ h => h
  | cons b bs ih => exact ih.comp (crcByte_left_injective hpoly b)

/-- Values that differ after the changed byte stay different over the rest of the list. -/
theorem crc16_ne_of_byte_ne {c : Config} (hpoly : c.crcPoly.getLsbD 15 = true) (l r : List Byte) {a b : Byte}
    (hne : a ≠ b) : crc16 c (l ++ a :: r) ≠ crc16 c (l ++ b :: r) := by
  rw [crc16_append, crc16_append]
  intro h
  have hstep : crcByte c (crc16 c l) a = crcByte c (crc16 c l) b := crcFold_injective hpoly r h
  exact hne (crcByte_right_injective hpoly _ hstep)

/-- Settles O12: a fold continues over a concatenation; the residue is a value's fold over its own bytes; and a byte
step is one-to-one in the byte and in the value. -/
theorem crcLaws : Obligations.CrcLaws :=
  ⟨crc16_append, fun c l => (crc16_append c l _).trans (crcFold_own_bytes c _),
    fun _ l r _ _ hpoly hne => crc16_ne_of_byte_ne hpoly l r hne⟩

/-! ### The CRC request (R72) -/

theorem exec_crc (bs : List Byte) (s : State) : exec (.crc bs) s = .next (respond .ok (.crc (crc16 s.cfg bs)) s) := rfl

/-- Settles O11: the request is one response, which is appended to the observation, and the two values compute. -/
theorem crcRequestResult : Obligations.CrcRequestResult :=
  ⟨fun s bs => exec_crc bs s, rfl, by decide +kernel⟩

end Sys2Proof.Machine

/-! PROOFS. The statements on 41_codec.md: the layout of a built frame (R73), the BUILD and VALIDATE requests (R74,
R75, R76), the round trip (R77) and the detection of one changed byte (R78). -/

namespace Sys2Proof.Machine

open Sys2Proof

/-! ### Bytes of a frame by offset (R9, R48) -/

theorem frameByte_append_left {f : List Byte} {i : Nat} (h : i < f.length) (r : List Byte) :
    frameByte (f ++ r) i = frameByte f i :=
  List.getD_append f r 0 i h

theorem frameByte_append_right {f : List Byte} {i : Nat} (h : f.length ≤ i) (r : List Byte) :
    frameByte (f ++ r) i = frameByte r (i - f.length) :=
  List.getD_append_right f r 0 i h

theorem frameByte_set_self {f : List Byte} {i : Nat} (h : i < f.length) (v : Byte) : frameByte (f.set i v) i = v := by
  simp [frameByte, h]

theorem frameByte_set_ne (f : List Byte) {i j : Nat} (h : i ≠ j) (v : Byte) :
    frameByte (f.set i v) j = frameByte f j := by
  simp [frameByte, h]

/-! ### The head of a frame, offsets `0 .. 3+L` (R55, R73) -/

/-- The bytes of a frame up to the end of its payload: as many as its length byte says (R55, R57). A frame is a head,
the two CRC bytes and the terminator. -/
def IsFrameHead (f : List Byte) : Prop := f.length = 4 + frameLen f

section
variable {f : List Byte} (hf : IsFrameHead f)
include hf

theorem frameLen_append (r : List Byte) : frameLen (f ++ r) = frameLen f := by
  have h3 : 3 < f.length := by rw [hf]; omega
  rw [frameLen, frameByte_append_left h3, frameLen]

theorem take_append_head (r : List Byte) : (f ++ r).take (4 + frameLen f) = f := by
  rw [← hf]
  exact List.take_left

/-- The bytes after the head, by their distance from its end. -/
theorem frameByte_after_head (r : List Byte) (k : Nat) : frameByte (f ++ r) (k + 4 + frameLen f) = frameByte r k := by
  have hend : k + 4 + frameLen f = k + f.length := by rw [hf]; omega
  rw [hend, frameByte_append_right (Nat.le_add_left _ _), Nat.add_sub_cancel]

theorem set_after_head (r : List Byte) (k : Nat) (v : Byte) :
    (f ++ r).set (k + 4 + frameLen f) v = f ++ r.set k v := by
  have hend : k + 4 + frameLen f = k + f.length := by rw [hf]; omega
  rw [hend, List.set_append_right _ _ (Nat.le_add_left _ _), Nat.add_sub_cancel]

theorem frameCrc_append (lo hi t : Byte) : frameCrc (f ++ [lo, hi, t]) = wordOfBytes lo hi := by
  rw [frameCrc, frameLen_append hf]
  exact congrArg₂ wordOfBytes (frameByte_after_head hf _ 0) (frameByte_after_head hf _ 1)

/-- Changing a byte of the head other than the length byte leaves a head of the same length. -/
theorem isFrameHead_set {i : Nat} (hi : i ≠ 3) (v : Byte) : IsFrameHead (f.set i v) := by
  rw [IsFrameHead, List.length_set, frameLen, frameByte_set_ne f hi]
  exact hf

/-- R75 on a frame of the right length: what is left of the checks once the length guard has passed. -/
theorem validate_head_append {c : Config} (hfit : 7 + frameLen f ≤ c.frameBufSize) (lo hi t : Byte) :
    validate c (f ++ [lo, hi, t]) =
      if frameByte f 0 ≠ c.header1 ∨ frameByte f 1 ≠ c.header2 then .headerMismatch
      else if crc16 c f ≠ wordOfBytes lo hi then .crcMismatch
      else if t ≠ c.terminator then .terminatorMismatch
      else .ok := by
  have hlen : (f ++ [lo, hi, t]).length = 7 + frameLen f := by
    rw [List.length_append, hf, List.length_cons, List.length_cons, List.length_singleton]
    omega
  have hguard : ¬ (7 + frameLen f < 4 ∨ c.frameBufSize < 7 + frameLen f ∨ 7 + frameLen f < 7 + frameLen f) := by omega
  have h0 : 0 < f.length := by rw [hf]; omega
  have h1 : 1 < f.length := by rw [hf]; omega
  have hterm : frameByte (f ++ [lo, hi, t]) (6 + frameLen f) = t := frameByte_after_head hf _ 2
  rw [validate, frameLen_append hf, hlen, if_neg hguard, frameByte_append_left h0, frameByte_append_left h1,
    take_append_head hf, frameCrc_append hf, hterm]

end

/-! ### The layout of a built frame (R73) -/

theorem length_frameHead (c : Config) (a : AckSel) (p : List Byte) : (frameHead c a p).length = 4 + p.length :=
  Nat.add_comm p.length 4

/-- What BUILD appends to a head: its CRC, low byte first, and the terminator (R73). -/
def frameTail (c : Config) (f : List Byte) : List Byte := [loByte (crc16 c f), hiByte (crc16 c f), c.terminator]

theorem build_eq (c : Config) (a : AckSel) (p : List Byte) :
    build c a p = frameHead c a p ++ frameTail c (frameHead c a p) := rfl

theorem length_build (c : Config) (a : AckSel) (p : List Byte) : (build c a p).length = 7 + p.length := by
  rw [build_eq, List.length_append, length_frameHead, Nat.add_right_comm]
  rfl

section
variable {p : List Byte} (hp : p.length ≤ 255) (c : Config) (a : AckSel)
include hp

/-- The payload's length fits the length byte. -/
theorem frameLen_frameHead : frameLen (frameHead c a p) = p.length :=
  Nat.mod_eq_of_lt (show p.length < 2 ^ 8 by omega)

theorem isFrameHead_frameHead : IsFrameHead (frameHead c a p) := by
  rw [IsFrameHead, length_frameHead, frameLen_frameHead hp]

theorem frameLen_build : frameLen (build c a p) = p.length :=
  (frameLen_append (isFrameHead_frameHead hp c a) _).trans (frameLen_frameHead hp c a)

theorem frameByte_build_tail (k : Nat) :
    frameByte (build c a p) (k + 4 + p.length) = frameByte (frameTail c (frameHead c a p)) k := by
  have hread := frameByte_after_head (isFrameHead_frameHead hp c a)
  rw [frameLen_frameHead hp] at hread
  exact hread _ k

theorem build_set_tail (k : Nat) (v : Byte) :
    (build c a p).set (k + 4 + p.length) v = frameHead c a p ++ (frameTail c (frameHead c a p)).set k v := by
  have hset := set_after_head (isFrameHead_frameHead hp c a)
  rw [frameLen_frameHead hp] at hset
  exact hset _ k v

/-- The CRC field of a built frame is the CRC of everything before it. -/
theorem frameCrc_build : frameCrc (build c a p) = crc16 c ((build c a p).take (4 + p.length)) := by
  have hhead := isFrameHead_frameHead hp c a
  have htake := take_append_head hhead
  rw [frameLen_frameHead hp] at htake
  rw [build, frameCrc_append hhead, wordOfBytes_loByte_hiByte, htake]

theorem frameByte_build_terminator : frameByte (build c a p) (6 + p.length) = c.terminator :=
  frameByte_build_tail hp c a 2

end

theorem payload_le_255 {c : Config} (hc : c.Wf) {p : List Byte} (hp : p.length ≤ c.maxPayload) : p.length ≤ 255 := by
  obtain ⟨-, hmax, -⟩ := hc
  exact hp.trans hmax

/-- A built frame fits the buffers (R8). -/
theorem build_fits {c : Config} (hc : c.Wf) {p : List Byte} (hp : p.length ≤ c.maxPayload) :
    7 + p.length ≤ c.frameBufSize := by
  obtain ⟨hbuf, -⟩ := hc
  omega

/-- Settles O14: the bytes are those of the definition, and each field is read at its distance from the head's end. -/
theorem builtFrameLayout : Obligations.BuiltFrameLayout := by
  intro c a p hc hp
  have hbyte := payload_le_255 hc hp
  refine ⟨?_, length_build c a p, frameLen_build hbyte c a, framePayload_build c a hbyte, frameCrc_build hbyte c a,
    frameByte_build_terminator hbyte c a⟩
  cases a <;> rfl

/-! ### The BUILD request (R74) -/

theorem buildRequest_waking (a : AckSel) (p : List Byte) {s : State} (hw : s.wst = .waking) :
    buildRequest a p s = .next (hold s) :=
  if_pos hw

theorem buildRequest_tooLong (a : AckSel) {p : List Byte} {s : State} (hw : s.wst ≠ .waking)
    (hp : s.cfg.maxPayload < p.length) : buildRequest a p s = .next (respond .payloadTooLong .none s) := by
  rw [buildRequest, if_neg hw, if_pos hp]

theorem buildRequest_built (a : AckSel) {p : List Byte} {s : State} (hcfg : s.cfg.Wf) (hmem : Memory.wf s.txbuf)
    (hw : s.wst ≠ .waking) (hp : p.length ≤ s.cfg.maxPayload) :
    Built (build s.cfg a p) s (buildRequest a p s) := by
  have hfit : (build s.cfg a p).length ≤ s.cfg.frameBufSize := by
    rw [length_build]
    exact build_fits hcfg hp
  have hload := txLoad_eq_ok.2 ⟨hfit, rfl⟩
  rw [buildRequest, if_neg hw, if_neg (Nat.not_lt.2 hp)]
  exact ⟨_, outcomeOf_eq_next.2 (except_map_eq_ok.2 ⟨_, hload, rfl⟩), txLoad_loaded hmem, rfl⟩

/-- Both BUILD instructions are the request with their ack selector. -/
theorem exec_build {a : AckSel} {p : List Byte} {i : Instr}
    (h : (a = .ack ∧ i = .buildAck p) ∨ (a = .noack ∧ i = .buildNoack p)) (s : State) :
    exec i s = buildRequest a p s := by
  obtain ⟨rfl, rfl⟩ | ⟨rfl, rfl⟩ := h <;> rfl

/-- Settles O15: one lemma per branch of the request. -/
theorem buildRequestResult : Obligations.BuildRequestResult := by
  intro s a p i hcfg hmem hi
  rw [exec_build hi]
  split_ifs with hw hp
  · exact buildRequest_waking a p hw
  · exact buildRequest_tooLong a hw hp
  · exact buildRequest_built a hcfg hmem hw (Nat.le_of_not_lt hp)

/-! ### The VALIDATE request (R75, R76) -/

theorem exec_validate (b : List Byte) (s : State) :
    exec (.validate b) s = .next { s with trace := s.trace ++ [.response (validate s.cfg b) .none] } := rfl

/-- Settles O16: the code is that of the validate function, whose checks are the rule's with the fields of the frame
written out by offset. -/
theorem validateRequestResult : Obligations.ValidateRequestResult :=
  fun s b => ⟨validate s.cfg b, exec_validate b s, rfl⟩

/-! ### The round trip (R77) -/

section
variable {c : Config} {p : List Byte} (hc : c.Wf) (hp : p.length ≤ c.maxPayload) (a : AckSel)
include hc hp

/-- On the head that BUILD makes the length guard and the header check pass, so the rest decides. -/
theorem validate_frameHead_append (lo hi t : Byte) :
    validate c (frameHead c a p ++ [lo, hi, t]) =
      if crc16 c (frameHead c a p) ≠ wordOfBytes lo hi then .crcMismatch
      else if t ≠ c.terminator then .terminatorMismatch
      else .ok := by
  have hbyte := payload_le_255 hc hp
  have hfit := build_fits hc hp
  rw [← frameLen_frameHead hbyte c a] at hfit
  have hheaders : ¬ (frameByte (frameHead c a p) 0 ≠ c.header1 ∨ frameByte (frameHead c a p) 1 ≠ c.header2) := by
    simp [frameByte, frameHead]
  rw [validate_head_append (isFrameHead_frameHead hbyte c a) hfit, if_neg hheaders]

theorem validate_build : validate c (build c a p) = .ok := by
  rw [build, validate_frameHead_append hc hp a, wordOfBytes_loByte_hiByte, if_neg (not_not.2 rfl),
    if_neg (not_not.2 rfl)]

end

/-- Settles O17: the two CRC bytes put together are the CRC that is computed again, and the headers and the terminator
are checked against the constants they are written from. -/
theorem builtFramesValidate : Obligations.BuiltFramesValidate := fun _ a _ hc hp => validate_build hc hp a

/-! ### One changed byte (R78) -/

/-- Changing a byte changes the CRC, if the polynomial has bit 15 (R71). -/
theorem crc16_set_ne {c : Config} (hpoly : c.crcPoly.getLsbD 15 = true) {f : List Byte} {i : Nat} (hi : i < f.length)
    {v : Byte} (hv : v ≠ frameByte f i) : crc16 c (f.set i v) ≠ crc16 c f := by
  have hold : f = f.take i ++ frameByte f i :: f.drop (i + 1) := by simp [frameByte, hi]
  have hnew : f.set i v = f.take i ++ v :: f.drop (i + 1) := List.set_eq_take_append_cons_drop.trans (if_pos hi)
  rw [hnew]
  conv_rhs => rw [hold]
  exact crc16_ne_of_byte_ne hpoly _ _ hv

section
variable {c : Config} {p : List Byte} (hc : c.Wf) (hp : p.length ≤ c.maxPayload) (a : AckSel) {i : Nat} {v : Byte}
include hc hp

/-- A changed byte of the head leaves the CRC bytes and the terminator as BUILD wrote them. -/
theorem validate_build_set_head (hi : i < 4 + p.length) (h3 : i ≠ 3) :
    validate c ((build c a p).set i v) =
      if frameByte ((frameHead c a p).set i v) 0 ≠ c.header1 ∨ frameByte ((frameHead c a p).set i v) 1 ≠ c.header2 then
        .headerMismatch
      else if crc16 c ((frameHead c a p).set i v) ≠ crc16 c (frameHead c a p) then .crcMismatch
      else .ok := by
  have hbyte := payload_le_255 hc hp
  have hhead := isFrameHead_set (isFrameHead_frameHead hbyte c a) h3 v
  have hlen : frameLen ((frameHead c a p).set i v) = p.length := by
    rw [frameLen, frameByte_set_ne _ h3, ← frameLen, frameLen_frameHead hbyte]
  have hfit : 7 + frameLen ((frameHead c a p).set i v) ≤ c.frameBufSize := hlen.symm ▸ build_fits hc hp
  rw [← length_frameHead c a] at hi
  rw [build, List.set_append_left _ _ hi, validate_head_append hhead hfit, wordOfBytes_loByte_hiByte,
    if_neg (not_not.2 (rfl : c.terminator = c.terminator))]

theorem validate_build_set_header (hi : i = 0 ∨ i = 1) (hv : v ≠ frameByte (build c a p) i) :
    validate c ((build c a p).set i v) = .headerMismatch := by
  rw [validate_build_set_head hc hp a (by omega) (by omega), if_pos]
  obtain rfl | rfl := hi
  · exact .inl hv
  · exact .inr hv

/-- The ack byte and the payload bytes: the headers still match and the CRC does not. -/
theorem validate_build_set_ack_or_payload (hpoly : c.crcPoly.getLsbD 15 = true)
    (hi : i = 2 ∨ (4 ≤ i ∧ i < 4 + p.length)) (hv : v ≠ frameByte (build c a p) i) :
    validate c ((build c a p).set i v) = .crcMismatch := by
  have hlt : i < (frameHead c a p).length := by rw [length_frameHead]; omega
  have hheaders : ¬ (frameByte ((frameHead c a p).set i v) 0 ≠ c.header1 ∨
      frameByte ((frameHead c a p).set i v) 1 ≠ c.header2) := by
    rw [frameByte_set_ne _ (by omega), frameByte_set_ne _ (by omega)]
    simp [frameByte, frameHead]
  rw [build, frameByte_append_left hlt] at hv
  rw [validate_build_set_head hc hp a (length_frameHead c a p ▸ hlt) (by omega), if_neg hheaders,
    if_pos (crc16_set_ne hpoly hlt hv)]

/-- The CRC field read back has the changed byte where the CRC has the one BUILD wrote. -/
theorem validate_build_set_crcLo (hv : v ≠ frameByte (build c a p) (4 + p.length)) :
    validate c ((build c a p).set (4 + p.length) v) = .crcMismatch := by
  have hbyte := payload_le_255 hc hp
  have hold : frameByte (build c a p) (4 + p.length) = loByte (crc16 c (frameHead c a p)) :=
    frameByte_build_tail hbyte c a 0
  have hset : (build c a p).set (4 + p.length) v =
      frameHead c a p ++ [v, hiByte (crc16 c (frameHead c a p)), c.terminator] := build_set_tail hbyte c a 0 v
  rw [hold] at hv
  rw [hset, validate_frameHead_append hc hp, if_pos]
  intro hcrc
  exact hv (by rw [hcrc, loByte_wordOfBytes])

theorem validate_build_set_crcHi (hv : v ≠ frameByte (build c a p) (5 + p.length)) :
    validate c ((build c a p).set (5 + p.length) v) = .crcMismatch := by
  have hbyte := payload_le_255 hc hp
  have hold : frameByte (build c a p) (5 + p.length) = hiByte (crc16 c (frameHead c a p)) :=
    frameByte_build_tail hbyte c a 1
  have hset : (build c a p).set (5 + p.length) v =
      frameHead c a p ++ [loByte (crc16 c (frameHead c a p)), v, c.terminator] := build_set_tail hbyte c a 1 v
  rw [hold] at hv
  rw [hset, validate_frameHead_append hc hp, if_pos]
  intro hcrc
  exact hv (by rw [hcrc, hiByte_wordOfBytes])

theorem validate_build_set_terminator (hv : v ≠ frameByte (build c a p) (6 + p.length)) :
    validate c ((build c a p).set (6 + p.length) v) = .terminatorMismatch := by
  have hbyte := payload_le_255 hc hp
  rw [frameByte_build_terminator hbyte] at hv
  have hset : (build c a p).set (6 + p.length) v =
      frameHead c a p ++ [loByte (crc16 c (frameHead c a p)), hiByte (crc16 c (frameHead c a p)), v] :=
    build_set_tail hbyte c a 2 v
  rw [hset, validate_frameHead_append hc hp, wordOfBytes_loByte_hiByte, if_neg (not_not.2 rfl), if_pos hv]

end

/-- A length byte above the payload's length asks for more bytes than the frame has. -/
theorem validate_build_set_length (c : Config) (a : AckSel) {p : List Byte} {v : Byte} (hv : p.length < v.toNat) :
    validate c ((build c a p).set 3 v) = .malformed := by
  have h3 : 3 < (build c a p).length := by rw [length_build]; omega
  have hlen : frameLen ((build c a p).set 3 v) = v.toNat := congrArg BitVec.toNat (frameByte_set_self h3 v)
  rw [validate, hlen, List.length_set, length_build, if_pos]
  omega

/-- Settles O18: one lemma per position. -/
theorem corruptedFramesAreDetected : Obligations.CorruptedFramesAreDetected := by
  intro c a p i v hc hp hv
  refine ⟨fun hi => validate_build_set_header hc hp a hi hv, ?crc, ?terminator,
    fun hpoly hi => validate_build_set_ack_or_payload hc hp a hpoly hi hv, ?length⟩
  case crc =>
    rintro (rfl | rfl)
    · exact validate_build_set_crcLo hc hp a hv
    · exact validate_build_set_crcHi hc hp a hv
  case terminator =>
    rintro rfl
    exact validate_build_set_terminator hc hp a hv
  case length =>
    rintro rfl hlt
    exact validate_build_set_length c a (Nat.lt_of_add_lt_add_left hlt)

end Sys2Proof.Machine

/-! PROOFS. The statements on 42_rx_framer.md: that no step faults (R79, R122), the rules of a byte in each framer state
(R82 to R88), the inactivity reset (R89), the answer of a POLL (R90, R91), and the frames and the garbage of R92. -/

namespace Sys2Proof.Machine

open Sys2Proof

/-! ### What is read from a buffer (R41) -/

/-- A buffer in canonical form that reads as 0 everywhere lists no byte. -/
theorem Memory.eq_nil_of_read_eq_zero {m : Memory} (hwf : Memory.wf m) (h : ∀ a, Memory.read m a = 0) : m = [] := by
  cases m with
  | nil => rfl
  | cons c m =>
    have hread : Memory.read (c :: m) c.1 = c.2 := if_pos rfl
    exact absurd (hread.symm.trans (h c.1)) (hwf.2 c List.mem_cons_self)

theorem Memory.readList_succ (m : Memory) (a n : Nat) :
    Memory.readList m a (n + 1) = Memory.readList m a n ++ [Memory.read m (a + n)] := by
  induction n generalizing a with
  | zero => rfl
  | succ n ih =>
    have hnext : a + 1 + n = a + (n + 1) := by omega
    rw [Memory.readList, ih, hnext]
    rfl

theorem Memory.readList_write_of_le {m : Memory} (hwf : Memory.wf m) {a n k : Nat} (h : a + n ≤ k) (v : Byte) :
    Memory.readList (Memory.write m k v) a n = Memory.readList m a n := by
  induction n generalizing a with
  | zero => rfl
  | succ n ih =>
    rw [Memory.readList, Memory.readList, Memory.read_write hwf, if_neg (by omega), ih (by omega)]

theorem Memory.writeList_append_singleton (m : Memory) (a : Nat) (bs : List Byte) (v : Byte) :
    Memory.writeList m a (bs ++ [v]) = Memory.write (Memory.writeList m a bs) (a + bs.length) v := by
  induction bs generalizing m a with
  | nil => rfl
  | cons b bs ih =>
    have hend : a + 1 + bs.length = a + (bs.length + 1) := by omega
    rw [List.cons_append, Memory.writeList, ih, hend]
    rfl

/-- The frame that a last byte completes: the bytes received so far, then that byte (R88). -/
theorem completedFrame_eq_append {b : Byte} {s : State} (hwf : Memory.wf s.rxbuf) (hlast : s.rxidx + 1 = s.rxexp) :
    completedFrame b s = Memory.readList s.rxbuf 0 s.rxidx ++ [b] := by
  rw [completedFrame, ← hlast, Memory.readList_succ, Memory.readList_write_of_le hwf (by omega),
    Memory.read_write hwf, if_pos (Nat.zero_add _)]

/-! ### The result of each byte rule where there is room (R79 to R88) -/

/-- The state after the restart step (R81). -/
def restarted (b : Byte) (s : State) : State :=
  { clear s with rxbuf := Memory.write [] 0 b, rxidx := 1, fst := .sawHeader1 }

/-- The state after a byte is recorded and the framer moves on to `fst`, with the expected length `rxexp` (R83 to
R86). -/
def advanced (fst : Fst) (rxexp : Nat) (b : Byte) (s : State) : State :=
  { recorded b s with fst := fst, rxexp := rxexp }

theorem record_of_room {b : Byte} {s : State} (hroom : s.rxidx < s.cfg.frameBufSize) :
    record b s = .ok (recorded b s) :=
  record_eq_ok.2 ⟨hroom, rfl⟩

theorem restart_of_room {b : Byte} {s : State} (hroom : 0 < s.cfg.frameBufSize) : restart b s = .ok (restarted b s) :=
  restart_eq_ok.2 ⟨hroom, rfl⟩

/-- The result of completing the frame whose last byte is `b` (R88): the resulting state and the event. -/
def completed (b : Byte) (s : State) : State × List Code :=
  if validate s.cfg (completedFrame b s) = .ok then
    (clear (emitFrame (completedFrame b s) s), [.frameValid])
  else (clear s, [validate s.cfg (completedFrame b s)])

theorem completed_of_valid {b : Byte} {s : State} (h : validate s.cfg (completedFrame b s) = .ok) :
    completed b s = (clear (emitFrame (completedFrame b s) s), [.frameValid]) :=
  if_pos h

theorem completed_of_crcMismatch {b : Byte} {s : State} (h : validate s.cfg (completedFrame b s) = .crcMismatch) :
    completed b s = (clear s, [.crcMismatch]) := by
  rw [completed, h, if_neg (by decide)]

theorem complete_recorded {b : Byte} {s : State} (hsize : s.rxexp ≤ s.cfg.frameBufSize) :
    complete (recorded b s) = .ok (completed b s) :=
  complete_eq_ok.2 ⟨hsize, rfl⟩

/-- R82 in Idle, and R87 while discarding: only `HEADER1` is taken. -/
theorem consumeIdle_of_room {b : Byte} {s : State} (hroom : 0 < s.cfg.frameBufSize) :
    noEvent (consumeIdle b s) = .ok (if b = s.cfg.header1 then restarted b s else s, []) := by
  unfold consumeIdle
  split
  · rw [restart_of_room hroom]; rfl
  · rfl

/-- The shape of the rules R83 to R85: the byte wanted is recorded and moves the framer on by `f`; `HEADER1` starts a
new frame; any other byte moves the framer by `g`. -/
theorem record_or_restart_of_room {b : Byte} {s : State} {f g : State → State} {wanted : Prop} [Decidable wanted]
    (hroom : s.rxidx < s.cfg.frameBufSize) :
    noEvent (if wanted then (record b s).map f else if b = s.cfg.header1 then restart b s else .ok (g s)) =
      .ok (if wanted then f (recorded b s) else if b = s.cfg.header1 then restarted b s else g s, []) := by
  split
  · rw [record_of_room hroom]; rfl
  · split
    · rw [restart_of_room (Nat.zero_lt_of_lt hroom)]; rfl
    · rfl

section
variable {b : Byte} {s : State}

theorem consume_idle (hfst : s.fst = .idle) (hroom : 0 < s.cfg.frameBufSize) :
    consume b s = .ok (if b = s.cfg.header1 then restarted b s else s, []) := by
  unfold consume
  rw [hfst]
  exact consumeIdle_of_room hroom

theorem consume_sawHeader1 (hfst : s.fst = .sawHeader1) (hroom : s.rxidx < s.cfg.frameBufSize) :
    consume b s =
      .ok (if b = s.cfg.header2 then advanced .sawHeader2 s.rxexp b s
        else if b = s.cfg.header1 then restarted b s else clear s, []) := by
  unfold consume
  rw [hfst]
  exact record_or_restart_of_room hroom

theorem consume_sawHeader2 (hfst : s.fst = .sawHeader2) (hroom : s.rxidx < s.cfg.frameBufSize) :
    consume b s =
      .ok (if b = s.cfg.ackv ∨ b = s.cfg.noackv then advanced .sawLength s.rxexp b s
        else if b = s.cfg.header1 then restarted b s else s, []) := by
  unfold consume
  rw [hfst]
  exact record_or_restart_of_room (g := id) hroom

theorem consume_sawLength (hfst : s.fst = .sawLength) (hroom : s.rxidx < s.cfg.frameBufSize) :
    consume b s =
      .ok (if b.toNat ≤ s.cfg.maxPayload then advanced .accumulating (7 + b.toNat) b s
        else if b = s.cfg.header1 then restarted b s else clear s, []) := by
  have hexp : 2 + 1 + 1 + b.toNat + 2 + 1 = 7 + b.toNat := by omega
  unfold consume
  rw [hfst, ← hexp]
  exact record_or_restart_of_room hroom

/-- R86: a byte below the expected length that does not complete the frame. -/
theorem consume_data (hfst : s.fst = .accumulating) (hidx : s.rxidx < s.rxexp) (hsize : s.rxexp ≤ s.cfg.frameBufSize)
    (hmore : ¬ (s.rxidx + 1 = s.rxexp ∧ b = s.cfg.terminator)) :
    consume b s = .ok (advanced .accumulating s.rxexp b s, []) := by
  have hadvanced : advanced .accumulating s.rxexp b s = recorded b s := by rw [advanced, ← hfst]; rfl
  rw [hadvanced]
  unfold consume consumeAccumulating
  rw [hfst]
  dsimp only
  rw [if_pos hidx, record_of_room (hidx.trans_le hsize)]
  exact if_neg hmore

/-- R88: the terminator as the last expected byte completes the frame. -/
theorem consume_last (hfst : s.fst = .accumulating) (hlast : s.rxidx + 1 = s.rxexp)
    (hsize : s.rxexp ≤ s.cfg.frameBufSize) (hb : b = s.cfg.terminator) : consume b s = .ok (completed b s) := by
  have hidx : s.rxidx < s.rxexp := by omega
  unfold consume consumeAccumulating
  rw [hfst]
  dsimp only
  rw [if_pos hidx, record_of_room (hidx.trans_le hsize)]
  exact (if_pos ⟨hlast, hb⟩).trans (complete_recorded hsize)

theorem consume_discarding (hfst : s.fst = .accumulating) (hidx : s.rxexp ≤ s.rxidx)
    (hroom : 0 < s.cfg.frameBufSize) :
    consume b s = .ok (if b = s.cfg.header1 then restarted b s else s, []) := by
  unfold consume consumeAccumulating
  rw [hfst]
  dsimp only
  rw [if_neg (Nat.not_lt.2 hidx)]
  exact consumeIdle_of_room hroom

end

/-- A byte rule in its first branch. -/
theorem ok_ite_pos {wanted : Prop} [Decidable wanted] {u v : State} (h : wanted) :
    (.ok (if wanted then u else v, []) : Except Fault (State × List Code)) = .ok (u, []) := by
  rw [if_pos h]

/-! ### The framer in a state that meets the invariant (R8, R27) -/

section
variable {s : State} (hs : Inv s)
include hs

theorem Inv.rxInv : RxInv s := (inv_iff.1 hs).2.1

theorem Inv.frameBufSize_pos : 0 < s.cfg.frameBufSize := by
  obtain ⟨hsize, -⟩ := hs.cfg
  omega

/-- Before the length byte at most three bytes are recorded, and the buffer holds at least seven. -/
theorem Inv.rxidx_lt (hfst : s.fst ≠ .accumulating) : s.rxidx < s.cfg.frameBufSize := by
  obtain ⟨hsize, -⟩ := hs.cfg
  cases h : s.fst with
  | idle => obtain ⟨hidx, -⟩ := hs.framer.idle h; omega
  | sawHeader1 => obtain ⟨hidx, -⟩ := hs.framer.sawHeader1 h; omega
  | sawHeader2 => obtain ⟨hidx, -⟩ := hs.framer.sawHeader2 h; omega
  | sawLength => obtain ⟨hidx, -⟩ := hs.framer.sawLength h; omega
  | accumulating => exact absurd h hfst

/-- In Idle the framer's elements have their cleared values. -/
theorem Inv.clear_eq_self (hfst : s.fst = .idle) : clear s = s := by
  obtain ⟨hidx, hexp⟩ := hs.framer.idle hfst
  have hbuf : s.rxbuf = [] :=
    Memory.eq_nil_of_read_eq_zero hs.rxInv.wf fun a => hs.framer.clean a (by omega)
  cases s
  simp_all [clear, Memory.empty]

theorem Inv.clear : Inv (clear s) := by
  obtain ⟨hcfg, hrx, htx, hframes⟩ := inv_iff.1 hs
  exact inv_iff.2 ⟨hcfg, hrx.clear, htx.of_sameTx rfl ⟨rfl, rfl, rfl, rfl, rfl, rfl, rfl⟩, hframes⟩

theorem Inv.inactivityCheck (now : Nat) : Inv (inactivityCheck now s).1 := by
  obtain h | h := inactivityCheck_eq now s <;> rw [h]
  · exact hs
  · exact hs.clear

end

/-- A frame that the terminator completes passes every check but that of its CRC: its length is the one its length byte
gave, the header bytes were recorded as received, and its last byte is the terminator (R88). -/
theorem validate_completedFrame {b : Byte} {s : State} (hs : RxInv s) (hfst : s.fst = .accumulating)
    (hlast : s.rxidx + 1 = s.rxexp) (hb : b = s.cfg.terminator) :
    validate s.cfg (completedFrame b s) = .ok ∨ validate s.cfg (completedFrame b s) = .crcMismatch := by
  obtain ⟨hlow, -, -, -, hsize⟩ := hs.framer.accumulating hfst
  obtain ⟨hkept0, hkept1⟩ := hs.headers
  have hlen : (completedFrame b s).length = s.rxexp := Memory.readList_length ..
  have hlenByte := completedFrame_length hs hfst (b := b)
  have hbyte : ∀ i, i < s.rxexp →
      frameByte (completedFrame b s) i = if i = s.rxidx then b else Memory.read s.rxbuf i := fun i hi => by
    rw [frameByte, completedFrame, Memory.getD_readList _ _ _ _ hi, Memory.read_write hs.wf, Nat.zero_add]
  have hguard : ¬ ((completedFrame b s).length < 4 ∨ s.cfg.frameBufSize < (completedFrame b s).length ∨
      (completedFrame b s).length < 7 + frameLen (completedFrame b s)) := by omega
  have hheaders : ¬ (frameByte (completedFrame b s) 0 ≠ s.cfg.header1 ∨
      frameByte (completedFrame b s) 1 ≠ s.cfg.header2) := by
    rw [hbyte 0 (by omega), hbyte 1 (by omega), if_neg (by omega), if_neg (by omega), hkept0 (by simp [hfst]),
      hkept1 (.inr hfst)]
    simp
  have hend : frameByte (completedFrame b s) (6 + frameLen (completedFrame b s)) = s.cfg.terminator := by
    rw [hbyte _ (by omega), if_pos (by omega), hb]
  rw [validate, if_neg hguard, if_neg hheaders, hend, if_neg (not_not.2 (rfl : s.cfg.terminator = _))]
  split
  · exact .inr rfl
  · exact .inl rfl

/-! ### What a POLL answers (R36, R90, R91) -/

/-- The state in which a POLL at `now` handles the byte it carries (R90). -/
abbrev touched (now : Nat) (s : State) : State := { s with tLastRx := now }

/-- The events `evs` of a byte or of no byte from `s`, with what the resulting state `u` has observed: nothing, a failed
frame, or a valid frame, which is the one that leaves on the frame-out port. -/
def Answers (s u : State) (evs : List Code) : Prop :=
  ((evs = [] ∨ evs = [.crcMismatch]) ∧ u.trace = s.trace) ∨
    (evs = [.frameValid] ∧ ∃ f, DeliverableFrame s.cfg f ∧ u.trace = s.trace ++ [.frameOut f])

theorem Answers.of_trace_eq {s u : State} (h : u.trace = s.trace) : Answers s u [] := .inl ⟨.inl rfl, h⟩

/-- The last byte of a frame in progress either delivers the frame or reports that its CRC does not match. -/
theorem completed_answers {b : Byte} {now : Nat} {s : State} (hs : RxInv s) (hfst : s.fst = .accumulating)
    (hlast : s.rxidx + 1 = s.rxexp) (hb : b = s.cfg.terminator) :
    Answers s (completed b (touched now s)).1 (completed b (touched now s)).2 := by
  obtain hvalid | hcrc := validate_completedFrame hs hfst hlast hb
  · rw [completed_of_valid (s := touched now s) hvalid]
    exact .inr ⟨rfl, _, ⟨completedFrame_length hs hfst, hvalid⟩, rfl⟩
  · rw [completed_of_crcMismatch (s := touched now s) hcrc]
    exact .inl ⟨.inr rfl, rfl⟩

theorem consume_answers {s : State} (hs : Inv s) (now : Nat) (b : Byte) :
    ∃ u evs, consume b (touched now s) = .ok (u, evs) ∧ Answers s u evs := by
  cases hfst : s.fst with
  | idle =>
    refine ⟨_, _, consume_idle hfst hs.frameBufSize_pos, .of_trace_eq ?_⟩
    split <;> rfl
  | sawHeader1 =>
    refine ⟨_, _, consume_sawHeader1 hfst (hs.rxidx_lt (by simp [hfst])), .of_trace_eq ?_⟩
    split_ifs <;> rfl
  | sawHeader2 =>
    refine ⟨_, _, consume_sawHeader2 hfst (hs.rxidx_lt (by simp [hfst])), .of_trace_eq ?_⟩
    split_ifs <;> rfl
  | sawLength =>
    refine ⟨_, _, consume_sawLength hfst (hs.rxidx_lt (by simp [hfst])), .of_trace_eq ?_⟩
    split_ifs <;> rfl
  | accumulating =>
    obtain ⟨-, hle, -, -, hsize⟩ := hs.framer.accumulating hfst
    obtain hidx | hidx := Nat.lt_or_ge s.rxidx s.rxexp
    · by_cases hend : s.rxidx + 1 = s.rxexp ∧ b = s.cfg.terminator
      · obtain ⟨hlast, hb⟩ := hend
        exact ⟨_, _, consume_last (s := touched now s) hfst hlast hsize hb, completed_answers hs.rxInv hfst hlast hb⟩
      · exact ⟨_, _, consume_data (s := touched now s) hfst hidx hsize hend, .of_trace_eq rfl⟩
    · refine ⟨_, _, consume_discarding hfst hidx hs.frameBufSize_pos, .of_trace_eq ?_⟩
      split <;> rfl

theorem pollByte_answers {s : State} (hs : Inv s) (now : Nat) (x : Option Byte) :
    ∃ u evs, pollByte now x s = .ok (u, evs) ∧ Answers s u evs := by
  cases x with
  | none => exact ⟨s, [], rfl, .of_trace_eq rfl⟩
  | some b => exact consume_answers hs now b

/-- The inactivity check reports at most its own event (R89). -/
theorem inactivityCheck_events (now : Nat) (s : State) :
    (inactivityCheck now s).2 = [] ∨ (inactivityCheck now s).2 = [.inactivityReset] := by
  obtain ⟨-, h⟩ | ⟨-, h⟩ := inactivityCheck_cases now s <;> simp [h]

/-- A POLL answers OK with the event of the inactivity check, if it is due, and then the event of the byte, if it has
one. -/
theorem exec_poll_answers {s : State} (hs : Inv s) (now : Nat) (x : Option Byte) :
    ∃ u evs, exec (.poll now x) s = .next (respond .ok (.events ((inactivityCheck now s).2 ++ evs)) u) ∧
      Answers (inactivityCheck now s).1 u evs := by
  obtain ⟨u, evs, hbyte, hanswers⟩ := pollByte_answers (hs.inactivityCheck now) now x
  exact ⟨u, evs, execPoll_eq_next.2 ⟨u, evs, hbyte, rfl⟩, hanswers⟩

/-! ### No instruction faults (R41, R42, R79, R122) -/

theorem wakeStart_answers {s : State} (h : s.txlen ≤ s.cfg.frameBufSize) (now : Nat) (st : Bool) :
    ∃ t, wakeStart now st s = .ok t := by
  by_cases hready : st = s.cfg.readyLevel
  · exact ⟨_, wakeStart_eq_ok.2 (.inl ⟨hready, h, rfl⟩)⟩
  · exact ⟨_, wakeStart_eq_ok.2 (.inr ⟨hready, rfl⟩)⟩

/-- The load and the wake start that SEND and SEND_RAW share stay inside a buffer that holds the bytes. -/
theorem load_wakeStart_answers {bs : List Byte} {s : State} (h : bs.length ≤ s.cfg.frameBufSize) (now : Nat)
    (st : Bool) : ∃ t, outcomeOf ((txLoad bs s).bind (wakeStart now st)) = .next t := by
  obtain ⟨t, ht⟩ := wakeStart_answers (s := loaded bs s) h now st
  exact ⟨t, outcomeOf_eq_next.2 (except_bind_eq_ok.2 ⟨loaded bs s, txLoad_eq_ok.2 ⟨h, rfl⟩, ht⟩)⟩

/-- A built frame fits space TX whenever its payload passes the check of BUILD and SEND (R8, R74, R96). -/
theorem length_build_le {c : Config} (hc : c.Wf) (a : AckSel) {p : List Byte} (hp : ¬ c.maxPayload < p.length) :
    (build c a p).length ≤ c.frameBufSize := by
  rw [length_build]
  exact build_fits hc (Nat.le_of_not_lt hp)

theorem buildRequest_answers {s : State} (hc : s.cfg.Wf) (a : AckSel) (p : List Byte) :
    ∃ t, buildRequest a p s = .next t := by
  unfold buildRequest
  split_ifs with hw hp
  · exact ⟨_, rfl⟩
  · exact ⟨_, rfl⟩
  · have hload := txLoad_eq_ok.2 ⟨length_build_le hc a hp, rfl⟩
    exact ⟨_, outcomeOf_eq_next.2 (except_map_eq_ok.2 ⟨_, hload, rfl⟩)⟩

theorem sendRequest_answers {s : State} (hc : s.cfg.Wf) (a : AckSel) (p : List Byte) (now : Nat) (st : Bool) :
    ∃ t, sendRequest a p now st s = .next t := by
  unfold sendRequest
  split_ifs with hw hp
  · exact ⟨_, rfl⟩
  · exact ⟨_, rfl⟩
  · exact load_wakeStart_answers (length_build_le hc a hp) now st

theorem execSendRaw_answers (s : State) (bs : List Byte) (now : Nat) (st : Bool) :
    ∃ t, execSendRaw bs now st s = .next t := by
  unfold execSendRaw
  split_ifs with hw hlen
  · exact ⟨_, rfl⟩
  · exact ⟨_, rfl⟩
  · exact load_wakeStart_answers (Nat.le_of_not_lt hlen) now st

/-- Of the three ends of an iteration only success reads space TX (R98). -/
theorem wakeIteration_answers {s : State} (h : s.txlen ≤ s.cfg.frameBufSize) (now : Nat) (st : Bool) :
    ∃ t, wakeIteration now st s = .ok t := by
  by_cases hready : st = s.cfg.readyLevel ∧ s.cfg.debounceMs ≤ elapsed s.cfg now s.tHold
  · obtain ⟨hlevel, hhold⟩ := hready
    exact ⟨_, wakeIteration_eq_ok.2 (.inl ⟨hlevel, hhold, wakeSuccess_eq_ok.2 ⟨h, rfl⟩⟩)⟩
  · obtain htime | htime := Nat.lt_or_ge (elapsed s.cfg now s.tStart) s.cfg.wakeTimeoutMs
    · exact ⟨_, wakeIteration_eq_ok.2 (.inr ⟨hready, .inr ⟨htime, rfl⟩⟩)⟩
    · exact ⟨_, wakeIteration_eq_ok.2 (.inr ⟨hready, .inl ⟨htime, rfl⟩⟩)⟩

theorem execTick_answers {s : State} (h : s.txlen ≤ s.cfg.frameBufSize) (now : Nat) (st : Bool) :
    ∃ t, execTick now st s = .next t := by
  unfold execTick
  split
  · exact ⟨_, rfl⟩
  · obtain ⟨t, ht⟩ := wakeIteration_answers h now st
    exact ⟨t, outcomeOf_eq_next.2 ht⟩

/-- Every instruction answers a next state from a state that meets the invariant. -/
theorem exec_answers {s : State} (hs : Inv s) (i : Instr) : ∃ t, exec i s = .next t := by
  cases i with
  | poll now x =>
    obtain ⟨u, evs, hpoll, -⟩ := exec_poll_answers hs now x
    exact ⟨_, hpoll⟩
  | tick now st => exact execTick_answers hs.txLen now st
  | buildAck | buildNoack => exact buildRequest_answers hs.cfg _ _
  | sendRaw => exact execSendRaw_answers s _ _ _
  | sendAck | sendNoack | cmdSetPairing | cmdOpenAdv | cmdCloseAdv | cmdKeyboard | cmdNkro | cmdConsumer | cmdSystem
  | cmdMouse | cmdRawHidOut => exact sendRequest_answers hs.cfg _ _ _ _
  | crc | validate | reset | cmdLed | cmdRawHidIn | cmdLinkStatusA1 | cmdLinkStatusA2 | cmdLinkStatusA3
  | cmdLinkStatusA4 | cmdLinkStatusA5 | cmdLinkStatusA7 => exact ⟨_, rfl⟩

/-- Only the instruction that a step runs can fault. -/
theorem exec_fault_of_step_fault {s : State} {e : Fault} (h : step s = .fault e) :
    ∃ i u, fetch s = .run i u ∧ exec i u = .fault e := by
  unfold step at h
  cases hfetch : fetch s with
  | run i u => exact ⟨i, u, rfl, by simpa [hfetch] using h⟩
  | done t => simp [hfetch] at h
  | refuse r => simp [hfetch] at h

/-- Settles O48: taking an offer keeps the invariant, and from there every instruction answers a next state. -/
theorem noStepFaults : Obligations.NoStepFaults := by
  intro s hs e hfault
  obtain ⟨i, u, hrun, hexec⟩ := exec_fault_of_step_fault hfault
  have htakes := fetch_takes s
  rw [hrun] at htakes
  obtain ⟨hdeq, -⟩ := htakes
  obtain ⟨t, ht⟩ := exec_answers (hdeq.inv hs) i
  rw [ht] at hexec
  cases hexec

/-! ### A POLL that carries a byte (R89, R90) -/

/-- Without an inactivity reset the byte is handled in the state as it is. -/
theorem inactivityCheck_of_not_inactive {now : Nat} {s : State} (h : ¬ inactive now s) :
    inactivityCheck now s = (s, []) :=
  if_neg h

theorem inactivityCheck_of_inactive {now : Nat} {s : State} (h : inactive now s) :
    inactivityCheck now s = (clear s, [.inactivityReset]) :=
  if_pos h

theorem exec_poll_some {now : Nat} {b : Byte} {s u v : State} {first second : List Code}
    (hcheck : inactivityCheck now s = (u, first)) (hbyte : consume b (touched now u) = .ok (v, second)) :
    exec (.poll now (some b)) s = .next (respond .ok (.events (first ++ second)) v) :=
  execPoll_eq_next.2 ⟨v, second, by rw [hcheck]; exact hbyte, by rw [hcheck]⟩

section
variable {now : Nat} {b : Byte} {s u : State} {first : List Code}

/-- A byte that raises no event, by the state it leaves. -/
theorem polled_of_consume {v : State} {fst : Fst} {rxidx rxexp : Nat} {byteAt : Nat → Byte}
    (hcheck : inactivityCheck now s = (u, first)) (hbyte : consume b (touched now u) = .ok (v, []))
    (hread : ∀ a, Memory.read v.rxbuf a = byteAt a)
    (hv : v = { s with fst := fst, rxbuf := v.rxbuf, rxidx := rxidx, rxexp := rxexp, tLastRx := now }) :
    Polled fst rxidx rxexp now first byteAt s (exec (.poll now (some b)) s) := by
  refine ⟨respond .ok (.events first) v, ?_, hread, congrArg (respond .ok (.events first)) hv⟩
  rw [exec_poll_some hcheck hbyte, List.append_nil]

theorem polled_restarted (hcheck : inactivityCheck now s = (u, first))
    (hbyte : consume b (touched now u) = .ok (restarted b (touched now s), [])) :
    Polled .sawHeader1 1 0 now first (fun a => if a = 0 then b else 0) s (exec (.poll now (some b)) s) :=
  polled_of_consume hcheck hbyte (Memory.read_write Memory.empty_wf 0 b) rfl

theorem polled_cleared (hcheck : inactivityCheck now s = (u, first))
    (hbyte : consume b (touched now u) = .ok (clear (touched now s), [])) :
    Polled .idle 0 0 now first (fun _ => 0) s (exec (.poll now (some b)) s) :=
  polled_of_consume hcheck hbyte (fun _ => rfl) rfl

theorem polled_ignored (hdue : ¬ inactive now s) (hbyte : consume b (touched now s) = .ok (touched now s, [])) :
    Polled s.fst s.rxidx s.rxexp now [] (fun a => Memory.read s.rxbuf a) s (exec (.poll now (some b)) s) :=
  polled_of_consume (inactivityCheck_of_not_inactive hdue) hbyte (fun _ => rfl) rfl

theorem polled_recorded {fst : Fst} {rxexp : Nat} (hs : Inv s) (hdue : ¬ inactive now s)
    (hbyte : consume b (touched now s) = .ok (advanced fst rxexp b (touched now s), [])) :
    Polled fst (s.rxidx + 1) rxexp now [] (fun a => if a = s.rxidx then b else Memory.read s.rxbuf a) s
      (exec (.poll now (some b)) s) :=
  polled_of_consume (inactivityCheck_of_not_inactive hdue) hbyte
    (Memory.read_write hs.rxInv.wf s.rxidx b) rfl

/-- A byte handled from a cleared framer, which Idle is and the inactivity reset leaves (R82, R89). -/
theorem polled_from_clear (hcheck : inactivityCheck now s = (clear s, first)) (hroom : 0 < s.cfg.frameBufSize) :
    if b = s.cfg.header1 then
      Polled .sawHeader1 1 0 now first (fun a => if a = 0 then b else 0) s (exec (.poll now (some b)) s)
    else Polled .idle 0 0 now first (fun _ => 0) s (exec (.poll now (some b)) s) := by
  have hbyte := consume_idle (b := b) (s := touched now (clear s)) rfl hroom
  split_ifs with hb
  · exact polled_restarted hcheck (by rw [hbyte, if_pos (c := b = (clear s).cfg.header1) hb]; rfl)
  · exact polled_cleared hcheck (by rw [hbyte, if_neg (c := b = (clear s).cfg.header1) hb]; rfl)

end

/-- Settles O19: Idle is the cleared framer, and no inactivity reset is due there. -/
theorem pollInIdle : Obligations.PollInIdle := by
  intro s now b hs hfst
  have hdue : ¬ inactive now s := fun h => h.1 hfst
  have hcheck : inactivityCheck now s = (clear s, []) := by
    rw [inactivityCheck_of_not_inactive hdue, hs.clear_eq_self hfst]
  exact polled_from_clear hcheck hs.frameBufSize_pos

/-- Settles O20: one lemma per branch of the rule, with the index and the expected length that SawHeader1 fixes. -/
theorem pollInSawHeader1 : Obligations.PollInSawHeader1 := by
  intro s now b hs hfst hdue
  obtain ⟨hidx, -⟩ := hs.framer.sawHeader1 hfst
  have hexp : s.rxexp = 0 := hs.framer.header (.inl hfst)
  have hbyte := consume_sawHeader1 (b := b) (s := touched now s) hfst (hs.rxidx_lt (by simp [hfst]))
  have hcheck := inactivityCheck_of_not_inactive hdue
  split_ifs with h2 h1
  · have hpolled := polled_recorded hs hdue (by rw [hbyte, if_pos h2])
    rw [hidx, hexp] at hpolled
    exact hpolled
  · exact polled_restarted hcheck (by rw [hbyte, if_neg h2, if_pos h1])
  · exact polled_cleared hcheck (by rw [hbyte, if_neg h2, if_neg h1])

/-- Settles O21: as O20, but a byte that the rule does not want leaves the framer as it is. -/
theorem pollInSawHeader2 : Obligations.PollInSawHeader2 := by
  intro s now b hs hfst hdue
  obtain ⟨hidx, -⟩ := hs.framer.sawHeader2 hfst
  have hexp : s.rxexp = 0 := hs.framer.header (.inr (.inl hfst))
  have hbyte := consume_sawHeader2 (b := b) (s := touched now s) hfst (hs.rxidx_lt (by simp [hfst]))
  have hcheck := inactivityCheck_of_not_inactive hdue
  split_ifs with hack h1
  · have hpolled := polled_recorded hs hdue (by rw [hbyte, if_pos hack])
    rw [hidx, hexp] at hpolled
    exact hpolled
  · exact polled_restarted hcheck (by rw [hbyte, if_neg hack, if_pos h1])
  · have hpolled := polled_ignored hdue (by rw [hbyte, if_neg hack, if_neg h1])
    rwa [hfst, hidx, hexp] at hpolled

/-- Settles O22: as O20; the expected length is the sum of the field sizes that the rule writes out. -/
theorem pollInSawLength : Obligations.PollInSawLength := by
  intro s now b hs hfst hdue
  obtain ⟨hidx, -⟩ := hs.framer.sawLength hfst
  have hbyte := consume_sawLength (b := b) (s := touched now s) hfst (hs.rxidx_lt (by simp [hfst]))
  have hcheck := inactivityCheck_of_not_inactive hdue
  split_ifs with hlen h1
  · have hpolled := polled_recorded hs hdue (by rw [hbyte, if_pos hlen])
    rw [hidx] at hpolled
    exact hpolled
  · exact polled_restarted hcheck (by rw [hbyte, if_neg hlen, if_pos h1])
  · exact polled_cleared hcheck (by rw [hbyte, if_neg hlen, if_neg h1])

/-- Settles O23: below the expected length a byte that does not complete the frame is recorded. -/
theorem pollInAccumulating : Obligations.PollInAccumulating := by
  intro s now b hs hfst hdue hidx hmore
  obtain ⟨-, -, -, -, hsize⟩ := hs.framer.accumulating hfst
  exact polled_recorded hs hdue (consume_data (s := touched now s) hfst hidx hsize hmore)

/-- The state after a frame is delivered and the POLL answers (R88, R91). -/
theorem respond_clear_emitFrame (c : Code) (d : Data) (f : List Byte) (s : State) :
    respond c d (clear (emitFrame f s)) = { s with
      fst := .idle, rxbuf := [], rxidx := 0, rxexp := 0, frames := s.frames ++ [f],
      trace := s.trace ++ [.frameOut f, .response c d] } := by
  simp [respond, observe, emitFrame, clear, Memory.empty]

/-- Settles O24: the completed frame is the one of the statement, and it fails no check but that of its CRC. -/
theorem pollCompletesTheFrame : Obligations.PollCompletesTheFrame := by
  intro s now b hs hfst hdue hlast hb
  obtain ⟨-, -, -, -, hsize⟩ := hs.framer.accumulating hfst
  have hbyte : consume b (touched now s) = .ok (completed b (touched now s)) := consume_last hfst hlast hsize hb
  have hcheck := inactivityCheck_of_not_inactive hdue
  rw [← completedFrame_eq_append hs.rxInv.wf hlast]
  refine (validate_completedFrame hs.rxInv hfst hlast hb).imp (fun hvalid => ⟨hvalid, ?_⟩) fun hcrc => ⟨hcrc, ?_⟩
  · have hdelivered := hbyte.trans (congrArg Except.ok (completed_of_valid (s := touched now s) hvalid))
    exact (exec_poll_some hcheck hdelivered).trans (congrArg _ (respond_clear_emitFrame _ _ _ _))
  · exact exec_poll_some hcheck (hbyte.trans (congrArg Except.ok (completed_of_crcMismatch (s := touched now s) hcrc)))

/-- Settles O25: at the expected length a byte is handled as in Idle, but the framer stays where it is. -/
theorem pollWhileDiscarding : Obligations.PollWhileDiscarding := by
  intro s now b hs hfst hdue hidx
  have hbyte := consume_discarding (b := b) (s := touched now s) hfst (Nat.le_of_eq hidx.symm) hs.frameBufSize_pos
  split_ifs with h1
  · exact polled_restarted (inactivityCheck_of_not_inactive hdue) (by rw [hbyte, if_pos h1])
  · have hpolled := polled_ignored hdue (by rw [hbyte, if_neg h1])
    rwa [hfst] at hpolled

/-! ### The inactivity reset and the answers of a POLL (R89 to R91) -/

/-- A POLL without a byte is its inactivity check. -/
theorem exec_poll_none {now : Nat} {s u : State} {first : List Code} (hcheck : inactivityCheck now s = (u, first)) :
    exec (.poll now none) s = .next (respond .ok (.events first) u) :=
  (execPoll_eq_next (x := none)).2 ⟨u, [], by rw [hcheck]; rfl, by rw [hcheck, List.append_nil]⟩

/-- Settles O26: the check clears the framer before the byte, and a byte from a cleared framer is a byte in Idle. -/
theorem pollInactivityReset : Obligations.PollInactivityReset := by
  intro s now hs
  refine ⟨fun hdue => ?_, fun hdue => exec_poll_none (inactivityCheck_of_not_inactive hdue)⟩
  have hcheck := inactivityCheck_of_inactive hdue
  refine ⟨⟨_, exec_poll_none hcheck, fun _ => rfl, rfl⟩, fun b hb => ?_, fun b hb => ?_⟩
  · have hpolled := polled_from_clear (b := b) hcheck hs.frameBufSize_pos
    rwa [if_pos hb] at hpolled
  · have hpolled := polled_from_clear (b := b) hcheck hs.frameBufSize_pos
    rwa [if_neg hb] at hpolled

/-- Settles O27: the inactivity check adds its event or none, and the byte adds one of its three answers. -/
theorem pollAlwaysAnswersOk : Obligations.PollAlwaysAnswersOk := by
  intro s now x hs
  obtain ⟨u, evs, hpoll, hanswers⟩ := exec_poll_answers hs now x
  rw [Answers, inactivityCheck_trace, inactivityCheck_cfg] at hanswers
  have hfirst := inactivityCheck_events now s
  obtain ⟨hevs, htrace⟩ | ⟨rfl, f, hf, htrace⟩ := hanswers
  · refine ⟨_, (inactivityCheck now s).2 ++ evs, [], hpoll, by simp [htrace], ?_⟩
    obtain h | h := hfirst <;> obtain rfl | rfl := hevs <;> simp [h]
  · refine ⟨_, (inactivityCheck now s).2 ++ [.frameValid], [.frameOut f], hpoll, by simp [htrace], ?_⟩
    obtain h | h := hfirst <;> simp [h, hf]

/-! ### Runs of POLLs (R92) -/

theorem execAll_cons_of_next {i : Instr} {rest : List Instr} {s t : State} (h : exec i s = .next t) :
    execAll (i :: rest) s = execAll rest t := by
  rw [execAll, h]

/-! #### Garbage -/

/-- A byte other than `HEADER1` in Idle changes only T_LASTRX (R82). -/
theorem exec_poll_garbage {now : Nat} {b : Byte} {s : State} (hfst : s.fst = .idle) (hb : b ≠ s.cfg.header1) :
    exec (.poll now (some b)) s = .next (respond .ok (.events []) (touched now s)) := by
  have hbyte : consume b (touched now s) = .ok (touched now s, []) := by
    unfold consume consumeIdle
    rw [hfst]
    exact congrArg noEvent (if_neg hb)
  exact exec_poll_some (inactivityCheck_of_not_inactive fun h => h.1 hfst) hbyte

theorem execAll_feed_garbage {bytes : List (Nat × Byte)} {s : State} (hfst : s.fst = .idle)
    (hbytes : ∀ q ∈ bytes, q.2 ≠ s.cfg.header1) :
    ∃ t, execAll (feed bytes) s = .next t ∧
      t = { s with
        tLastRx := t.tLastRx,
        trace := s.trace ++ List.replicate bytes.length (.response .ok (.events [])) } := by
  induction bytes generalizing s with
  | nil => exact ⟨s, rfl, by simp⟩
  | cons q rest ih =>
    obtain ⟨hb, hrest⟩ := List.forall_mem_cons.1 hbytes
    obtain ⟨t, hrun, ht⟩ := ih (s := respond .ok (.events []) (touched q.1 s)) hfst hrest
    refine ⟨t, (execAll_cons_of_next (exec_poll_garbage hfst hb)).trans hrun, ht.trans ?_⟩
    simp [List.replicate_succ]

/-- Settles O29: each byte leaves Idle as it is and adds one response, in every state in Idle. -/
theorem garbageLeavesTheFramerIdle : Obligations.GarbageLeavesTheFramerIdle :=
  fun _ _ _ => execAll_feed_garbage

/-! #### A frame in progress -/

/-- The framer state once `n` bytes of a frame are received (R82 to R86). -/
def framerPhase : Nat → Fst
  | 0 => .idle
  | 1 => .sawHeader1
  | 2 => .sawHeader2
  | 3 => .sawLength
  | _ => .accumulating

theorem framerPhase_of_le {n : Nat} (h : 4 ≤ n) : framerPhase n = .accumulating := by
  obtain ⟨k, rfl⟩ := Nat.exists_eq_add_of_le' h
  rfl

/-- `s` after its framer, idle before, received the bytes `bytes` of a frame, the last one at `last`. -/
def holding (bytes : List Byte) (last : Nat) (s : State) : State :=
  { s with
    fst := framerPhase bytes.length, rxbuf := Memory.writeList [] 0 bytes, rxidx := bytes.length,
    rxexp := if bytes.length < 4 then 0 else 7 + frameLen bytes, tLastRx := last,
    trace := s.trace ++ List.replicate bytes.length (.response .ok (.events [])) }

/-- `t` is `s` after its framer, idle again, delivered the frame `f`, one POLL per byte, with nothing else observed but
the responses. -/
def DeliveredAlone (f : List Byte) (s t : State) : Prop :=
  t.fst = .idle ∧ SameTx s t ∧ t.frames = s.frames ++ [f] ∧
    t.trace = s.trace ++ List.replicate (f.length - 1) (.response .ok (.events [])) ++
      [.frameOut f, .response .ok (.events [.frameValid])]

theorem Inv.eq_holding_nil {s : State} (hs : Inv s) (hfst : s.fst = .idle) : s = holding [] s.tLastRx s := by
  calc s = Machine.clear s := (hs.clear_eq_self hfst).symm
    _ = { Machine.clear s with trace := s.trace ++ [] } := by rw [List.append_nil]; rfl
    _ = holding [] s.tLastRx s := rfl

section
variable {bytes : List Byte} {b : Byte} {last now : Nat} {s : State}

/-- A byte that is recorded leaves a framer that holds it too. -/
theorem exec_poll_holding {fst : Fst} {rxexp : Nat} (hdue : ¬ inactive now (holding bytes last s))
    (hfst : fst = framerPhase (bytes.length + 1)) (hexp : rxexp = (holding (bytes ++ [b]) now s).rxexp)
    (hbyte : consume b (touched now (holding bytes last s)) =
      .ok (advanced fst rxexp b (touched now (holding bytes last s)), [])) :
    exec (.poll now (some b)) (holding bytes last s) = .next (holding (bytes ++ [b]) now s) := by
  rw [exec_poll_some (inactivityCheck_of_not_inactive hdue) hbyte, hfst, hexp]
  simp [holding, advanced, recorded, respond, observe, Memory.writeList_append_singleton, List.replicate_succ']

end

/-- The bytes of a built frame that the rules of the framer name (R73). -/
theorem build_eq_cons (c : Config) (a : AckSel) (p : List Byte) :
    build c a p = c.header1 :: c.header2 :: ackByte c a :: BitVec.ofNat 8 p.length ::
      (p ++ frameTail c (frameHead c a p)) := rfl

theorem ackByte_cases (c : Config) (a : AckSel) : ackByte c a = c.ackv ∨ ackByte c a = c.noackv := by
  cases a
  · exact .inl rfl
  · exact .inr rfl

/-- A first part of a built frame that lacks more than one byte is shorter than the frame by more than one. -/
theorem length_lt_of_frame {s : State} {a : AckSel} {p bytes rest : List Byte} {b : Byte} (hframe : bytes ++ b :: rest = build s.cfg a p)
    (hrest : rest ≠ []) : bytes.length + 1 < 7 + p.length := by
  have hmore : 0 < rest.length := List.length_pos_iff.2 hrest
  rw [← length_build s.cfg a p, ← hframe, List.length_append, List.length_cons]
  omega

section
variable {s : State} {a : AckSel} {p : List Byte} (hc : s.cfg.Wf) (hp : p.length ≤ s.cfg.maxPayload)
include hc hp

/-- Past the length byte the expected length is that of the frame (R85). -/
theorem holding_rxexp {bytes rest : List Byte} (hframe : bytes ++ rest = build s.cfg a p) (hlen : 4 ≤ bytes.length)
    (last : Nat) : (holding bytes last s).rxexp = 7 + p.length := by
  have hframeLen : frameLen bytes = p.length := by
    rw [← frameLen_build (payload_le_255 hc hp) s.cfg a, ← hframe, frameLen, frameLen, frameByte_append_left (by omega)]
  rw [← hframeLen]
  exact if_neg (Nat.not_lt.2 hlen)

/-- A byte after the length byte and before the last is recorded (R86). -/
theorem exec_poll_frame_data {bytes rest : List Byte} {b : Byte} {last now : Nat}
    (hframe : bytes ++ b :: rest = build s.cfg a p) (hrest : rest ≠ []) (hlen : 4 ≤ bytes.length)
    (hdue : ¬ inactive now (holding bytes last s)) :
    exec (.poll now (some b)) (holding bytes last s) = .next (holding (bytes ++ [b]) now s) := by
  have hidx := length_lt_of_frame hframe hrest
  have hexp : (holding bytes last s).rxexp = 7 + p.length := holding_rxexp hc hp hframe hlen last
  have hframe' : (bytes ++ [b]) ++ rest = build s.cfg a p := by rw [List.append_assoc]; exact hframe
  have hexp' : (holding (bytes ++ [b]) now s).rxexp = 7 + p.length :=
    holding_rxexp hc hp hframe' (by rw [List.length_append]; omega) now
  refine exec_poll_holding hdue (framerPhase_of_le (by omega)).symm (hexp.trans hexp'.symm)
    (consume_data (framerPhase_of_le hlen) ?_ (hexp.trans_le (build_fits hc hp)) fun hend => ?_)
  · exact (Nat.lt_of_succ_lt hidx).trans_eq hexp.symm
  · exact hidx.ne (hend.1.trans hexp)

/-- Every byte of a built frame but its last is recorded: it is the byte wanted in its state. -/
theorem exec_poll_frame_byte {bytes rest : List Byte} {b : Byte} {last now : Nat}
    (hframe : bytes ++ b :: rest = build s.cfg a p) (hrest : rest ≠ [])
    (hdue : ¬ inactive now (holding bytes last s)) :
    exec (.poll now (some b)) (holding bytes last s) = .next (holding (bytes ++ [b]) now s) := by
  have hroom : (touched now (holding bytes last s)).rxidx < (touched now (holding bytes last s)).cfg.frameBufSize :=
    (Nat.lt_of_succ_lt (length_lt_of_frame hframe hrest)).trans_le (build_fits hc hp)
  have hlen : (BitVec.ofNat 8 p.length).toNat = p.length := frameLen_frameHead (payload_le_255 hc hp) s.cfg a
  have hcons := hframe
  rw [build_eq_cons] at hcons
  match bytes with
  | [] =>
    obtain ⟨rfl, -⟩ := List.cons.inj hcons
    have hbyte := consume_idle (b := s.cfg.header1) (s := touched now (holding [] last s)) rfl hroom
    exact exec_poll_holding hdue rfl rfl (hbyte.trans (ok_ite_pos rfl))
  | [x] =>
    simp only [List.cons_append, List.nil_append, List.cons.injEq] at hcons
    obtain ⟨-, rfl, -⟩ := hcons
    exact exec_poll_holding hdue rfl rfl ((consume_sawHeader1 rfl hroom).trans (ok_ite_pos rfl))
  | [x, y] =>
    simp only [List.cons_append, List.nil_append, List.cons.injEq] at hcons
    obtain ⟨-, -, rfl, -⟩ := hcons
    exact exec_poll_holding hdue rfl rfl ((consume_sawHeader2 rfl hroom).trans (ok_ite_pos (ackByte_cases s.cfg a)))
  | [x, y, z] =>
    simp only [List.cons_append, List.nil_append, List.cons.injEq] at hcons
    obtain ⟨-, -, -, rfl, -⟩ := hcons
    exact exec_poll_holding hdue rfl rfl ((consume_sawLength rfl hroom).trans (ok_ite_pos (hlen.trans_le hp)))
  | x :: y :: z :: l :: q => exact exec_poll_frame_data hc hp hframe hrest (by simp) hdue

/-- The last byte of a built frame completes it: the frame is made of the bytes held and that byte, and it validates
(R77, R88). -/
theorem exec_poll_frame_end {bytes : List Byte} {b : Byte} {last now : Nat} (hframe : bytes ++ [b] = build s.cfg a p)
    (hdue : ¬ inactive now (holding bytes last s)) :
    ∃ t, exec (.poll now (some b)) (holding bytes last s) = .next t ∧ DeliveredAlone (build s.cfg a p) s t := by
  have hbyteLen := payload_le_255 hc hp
  have hlength : bytes.length = 6 + p.length := by
    have h := congrArg List.length hframe
    rw [List.length_append, length_build, List.length_singleton] at h
    omega
  have hexp := holding_rxexp hc hp hframe (by omega) last
  have hlast : bytes.length + 1 = (holding bytes last s).rxexp := by omega
  have hb : b = s.cfg.terminator := by
    rw [← frameByte_build_terminator hbyteLen s.cfg a, ← hframe, ← hlength, frameByte_append_right le_rfl,
      Nat.sub_self]
    rfl
  have hcompleted : completedFrame b (touched now (holding bytes last s)) = build s.cfg a p := by
    rw [completedFrame_eq_append (Memory.writeList_wf bytes Memory.empty_wf 0) hlast, ← hframe]
    exact congrArg (· ++ [b]) (Memory.readList_writeList bytes Memory.empty_wf)
  have hvalid : validate s.cfg (completedFrame b (touched now (holding bytes last s))) = .ok := by
    rw [hcompleted, validate_build hc hp]
  have hbyte := consume_last (s := touched now (holding bytes last s)) (framerPhase_of_le (by omega)) hlast
    (hexp.trans_le (build_fits hc hp)) hb
  rw [completed_of_valid hvalid, hcompleted] at hbyte
  refine ⟨_, exec_poll_some (inactivityCheck_of_not_inactive hdue) hbyte, ?_⟩
  rw [respond_clear_emitFrame]
  refine ⟨rfl, ⟨rfl, rfl, rfl, rfl, rfl, rfl, rfl⟩, rfl, ?_⟩
  rw [length_build]
  simp [holding, hlength]

/-- From a framer that holds a first part of a built frame, the rest of it, fed promptly, delivers it. -/
theorem execAll_feed_frame (rest : List (Nat × Byte)) {q : Nat × Byte} {bytes : List Byte} {last : Nat}
    (hframe : bytes ++ q.2 :: rest.map Prod.snd = build s.cfg a p) (hdue : ¬ inactive q.1 (holding bytes last s))
    (hprompt : Prompt s.cfg (q :: rest)) :
    ∃ t, execAll (feed (q :: rest)) (holding bytes last s) = .next t ∧ DeliveredAlone (build s.cfg a p) s t := by
  induction rest generalizing q bytes last with
  | nil =>
    obtain ⟨t, hend, ht⟩ := exec_poll_frame_end hc hp hframe hdue
    exact ⟨t, execAll_cons_of_next hend, ht⟩
  | cons r rest ih =>
    obtain ⟨hgap, hprompt⟩ := hprompt
    have hstep := exec_poll_frame_byte hc hp hframe (by simp) hdue
    have hframe' : (bytes ++ [q.2]) ++ r.2 :: rest.map Prod.snd = build s.cfg a p := by simpa using hframe
    obtain ⟨t, hrun, ht⟩ := ih hframe' (last := q.1) (fun h => Nat.not_lt.2 hgap h.2) hprompt
    exact ⟨t, (execAll_cons_of_next hstep).trans hrun, ht⟩

end

/-- Settles O28: an idle framer holds the empty first part of the frame, and no inactivity reset is due in Idle. -/
theorem builtFrameIsDeliveredOnce : Obligations.BuiltFrameIsDeliveredOnce := by
  intro s a p times hs hfst hp htimes hprompt
  have hbytes : (times.zip (build s.cfg a p)).map Prod.snd = build s.cfg a p :=
    List.map_snd_zip (by rw [length_build, htimes])
  generalize times.zip (build s.cfg a p) = polls at hbytes hprompt ⊢
  cases polls with
  | nil => exact absurd hbytes.symm (List.cons_ne_nil _ _)
  | cons q rest =>
    have hholding := hs.eq_holding_nil hfst
    have hdue : ¬ inactive q.1 (holding [] s.tLastRx s) := fun h => h.1 rfl
    obtain ⟨t, hrun, hidle, htx, hframes, htrace⟩ := execAll_feed_frame hs.cfg hp rest hbytes hdue hprompt
    rw [← hholding] at hrun
    rw [length_build, show 7 + p.length - 1 = 6 + p.length by omega] at htrace
    exact ⟨t, hrun, hidle, htx, hframes, htrace⟩

end Sys2Proof.Machine

/-! PROOFS. The statements on 43_wake.md: the requests of the transmit path and the busy hold (R94 to R97), TICK branch
by branch (R98 to R101), and the timeline of a wake with one TICK per millisecond (R102). -/

namespace Sys2Proof.Machine

open Sys2Proof

/-! ### The wake output pin (R29) -/

theorem setWakeOut_true_eq (now : Nat) (s : State) :
    setWakeOut now true s = { s with wakeOut := true, trace := s.trace ++ riseEdge now s } := by
  unfold setWakeOut riseEdge
  split_ifs with hpin
  · rw [List.append_nil, ← hpin]
  · rfl

theorem setWakeOut_not_eq (now : Nat) (s : State) :
    setWakeOut now (!s.wakeOut) s =
      { s with wakeOut := !s.wakeOut, trace := s.trace ++ [.wakeOut now (!s.wakeOut)] } :=
  if_neg (by simp)

theorem setWakeOut_self {level : Bool} {s : State} (h : s.wakeOut = level) (now : Nat) : setWakeOut now level s = s :=
  if_pos h

/-! ### SEND and SEND_RAW (R95 to R97) -/

theorem wakeStart_ready {bs : List Byte} {now : Nat} {st : Bool} {s : State} (hready : st = s.cfg.readyLevel)
    (hlen : s.txlen ≤ s.cfg.frameBufSize) (hread : Memory.readList s.txbuf 0 s.txlen = bs) :
    wakeStart now st s = .ok (respond .ok (.event .sent) (emitTx bs s)) :=
  wakeStart_eq_ok.2 (.inl ⟨hready, hlen, by rw [hread]⟩)

/-- A wake is entered with the pin high already, so that no change of it is observed (R29, R95). -/
theorem wakeStart_not_ready {now : Nat} {st : Bool} {s : State} (hready : st ≠ s.cfg.readyLevel)
    (hpin : s.wakeOut = true) :
    wakeStart now st s = .ok (respond .pending .none
      { s with wst := .waking, wakeOut := true, tStart := now, tToggle := now, tHold := now }) := by
  refine wakeStart_eq_ok.2 (.inr ⟨hready, ?_⟩)
  rw [enterWake, setWakeOut_self hpin, ← hpin]

/-- The load and the wake start that SEND and SEND_RAW share, from a state whose pin is high. -/
theorem load_wakeStart_sends {bs : List Byte} {s : State} (hmem : Memory.wf s.txbuf) (hpin : s.wakeOut = true)
    (hfit : bs.length ≤ s.cfg.frameBufSize) (now : Nat) (st : Bool) :
    Sends bs now st s (outcomeOf ((txLoad bs s).bind (wakeStart now st))) := by
  have hload : txLoad bs s = .ok (loaded bs s) := txLoad_eq_ok.2 ⟨hfit, rfl⟩
  refine ⟨fun hready => ?_, fun hready => ?_⟩
  · have hstart := wakeStart_ready (now := now) (s := loaded bs s) hready hfit (Memory.readList_writeList bs hmem)
    refine ⟨_, outcomeOf_eq_next.2 (except_bind_eq_ok.2 ⟨_, hload, hstart⟩), txLoad_loaded hmem, ?_⟩
    simp [emitTx, respond, observe, loaded]
  · have hstart := wakeStart_not_ready (now := now) (s := loaded bs s) hready hpin
    exact ⟨_, outcomeOf_eq_next.2 (except_bind_eq_ok.2 ⟨_, hload, hstart⟩), txLoad_loaded hmem, rfl⟩

theorem Inv.txbuf_wf {s : State} (hs : Inv s) : Memory.wf s.txbuf := by
  obtain ⟨-, hwf, -, -⟩ := hs.memory
  exact hwf

theorem Inv.wakeOut_of_not_waking {s : State} (hs : Inv s) (hw : s.wst ≠ .waking) : s.wakeOut = true := by
  cases hwst : s.wst with
  | idle => exact hs.wakePin hwst
  | waking => exact absurd hwst hw

theorem sendRequest_waking (a : AckSel) (p : List Byte) (now : Nat) (st : Bool) {s : State} (hw : s.wst = .waking) :
    sendRequest a p now st s = .next (hold s) :=
  if_pos hw

theorem sendRequest_tooLong (a : AckSel) {p : List Byte} (now : Nat) (st : Bool) {s : State} (hw : s.wst ≠ .waking)
    (hp : s.cfg.maxPayload < p.length) : sendRequest a p now st s = .next (respond .payloadTooLong .none s) := by
  rw [sendRequest, if_neg hw, if_pos hp]

theorem sendRequest_sends (a : AckSel) {p : List Byte} (now : Nat) (st : Bool) {s : State} (hs : Inv s)
    (hw : s.wst ≠ .waking) (hp : ¬ s.cfg.maxPayload < p.length) :
    Sends (build s.cfg a p) now st s (sendRequest a p now st s) := by
  rw [sendRequest, if_neg hw, if_neg hp]
  exact load_wakeStart_sends hs.txbuf_wf (hs.wakeOut_of_not_waking hw) (length_build_le hs.cfg a hp) now st

/-- Both SEND instructions are the request with their ack selector. -/
theorem exec_send {a : AckSel} {p : List Byte} {now : Nat} {st : Bool} {i : Instr}
    (h : (a = .ack ∧ i = .sendAck p now st) ∨ (a = .noack ∧ i = .sendNoack p now st)) (s : State) :
    exec i s = sendRequest a p now st s := by
  obtain ⟨rfl, rfl⟩ | ⟨rfl, rfl⟩ := h <;> rfl

/-- Settles O30: one lemma per branch of the request. -/
theorem sendRequestResult : Obligations.SendRequestResult := by
  intro s a p now st i hs hi
  rw [exec_send hi]
  split_ifs with hw hp
  · exact sendRequest_waking a p now st hw
  · exact sendRequest_tooLong a now st hw hp
  · exact sendRequest_sends a now st hs hw hp

theorem execSendRaw_waking (bs : List Byte) (now : Nat) (st : Bool) {s : State} (hw : s.wst = .waking) :
    execSendRaw bs now st s = .next (hold s) :=
  if_pos hw

theorem execSendRaw_tooLong {bs : List Byte} (now : Nat) (st : Bool) {s : State} (hw : s.wst ≠ .waking)
    (hlen : s.cfg.frameBufSize < bs.length) : execSendRaw bs now st s = .next (respond .payloadTooLong .none s) := by
  rw [execSendRaw, if_neg hw, if_pos hlen]

theorem execSendRaw_sends {bs : List Byte} (now : Nat) (st : Bool) {s : State} (hs : Inv s) (hw : s.wst ≠ .waking)
    (hlen : ¬ s.cfg.frameBufSize < bs.length) : Sends bs now st s (execSendRaw bs now st s) := by
  rw [execSendRaw, if_neg hw, if_neg hlen]
  exact load_wakeStart_sends hs.txbuf_wf (hs.wakeOut_of_not_waking hw) (Nat.le_of_not_lt hlen) now st

theorem exec_sendRaw (bs : List Byte) (now : Nat) (st : Bool) (s : State) :
    exec (.sendRaw bs now st) s = execSendRaw bs now st s := rfl

/-- Settles O31: one lemma per branch of the request. -/
theorem sendRawRequestResult : Obligations.SendRawRequestResult := by
  intro s bs now st hs
  rw [exec_sendRaw]
  split_ifs with hw hlen
  · exact execSendRaw_waking bs now st hw
  · exact execSendRaw_tooLong now st hw hlen
  · exact execSendRaw_sends now st hs hw hlen

/-! ### TICK (R98 to R101) -/

/-- A TICK at `now` finds the module ready and the hold long enough (R99). -/
abbrev HoldMet (now : Nat) (st : Bool) (s : State) : Prop :=
  st = s.cfg.readyLevel ∧ s.cfg.debounceMs ≤ elapsed s.cfg now s.tHold

theorem sampleHold_eq (now : Nat) (st : Bool) (s : State) :
    sampleHold now st s = { s with tHold := if st = s.cfg.readyLevel then s.tHold else now } := by
  unfold sampleHold
  split <;> rfl

theorem exec_tick_idle {s : State} (hw : s.wst = .idle) (now : Nat) (st : Bool) :
    exec (.tick now st) s = .next (respond .ok .none s) := by
  show execTick now st s = _
  rw [execTick, hw]

theorem exec_tick_of_wakeIteration {now : Nat} {st : Bool} {s t : State} (hw : s.wst = .waking)
    (h : wakeIteration now st s = .ok t) : exec (.tick now st) s = .next t := by
  show execTick now st s = _
  rw [execTick, hw]
  exact outcomeOf_eq_next.2 h

section
variable {now : Nat} {st : Bool} {s : State} (hw : s.wst = .waking)
include hw

/-- R99: the hold is met, and the bytes leave. -/
theorem exec_tick_success (htx : s.txlen ≤ s.cfg.frameBufSize) (hmet : HoldMet now st s) :
    exec (.tick now st) s = .next { s with
      wst := .idle, wakeOut := true,
      trace := s.trace ++ riseEdge now s ++
        [.tx (Memory.readList s.txbuf 0 s.txlen), .response .ok (.event .sent)] } := by
  obtain ⟨hready, hhold⟩ := hmet
  rw [exec_tick_of_wakeIteration hw
    (wakeIteration_eq_ok.2 (.inl ⟨hready, hhold, wakeSuccess_eq_ok.2 ⟨htx, rfl⟩⟩)), setWakeOut_true_eq]
  simp [emitTx, respond, observe]

/-- R100: the window is over, and nothing leaves. -/
theorem exec_tick_timeout (hmet : ¬ HoldMet now st s) (htime : s.cfg.wakeTimeoutMs ≤ elapsed s.cfg now s.tStart) :
    exec (.tick now st) s = .next { s with
      wst := .idle, wakeOut := true, tHold := (if st = s.cfg.readyLevel then s.tHold else now),
      trace := s.trace ++ riseEdge now s ++ [.response .ok (.event .wakeTimeout)] } := by
  rw [exec_tick_of_wakeIteration hw (wakeIteration_eq_ok.2 (.inr ⟨hmet, .inl ⟨htime, rfl⟩⟩)), endWake,
    setWakeOut_true_eq, sampleHold_eq]
  rfl

/-- R101: within the window, at least `TOGGLE_MS` after the last toggle. -/
theorem exec_tick_toggle (hmet : ¬ HoldMet now st s) (htime : elapsed s.cfg now s.tStart < s.cfg.wakeTimeoutMs)
    (htoggle : s.cfg.toggleMs ≤ elapsed s.cfg now s.tToggle) :
    exec (.tick now st) s = .next { s with
      wakeOut := !s.wakeOut, tToggle := now, tHold := now,
      trace := s.trace ++ [.wakeOut now (!s.wakeOut), .response .ok .none] } := by
  rw [exec_tick_of_wakeIteration hw (wakeIteration_eq_ok.2 (.inr ⟨hmet, .inr ⟨htime, rfl⟩⟩)), sampleHold_eq,
    toggleStep, if_pos htoggle, setWakeOut_not_eq]
  simp [respond, observe]

/-- A TICK that neither ends the wake nor toggles only samples the status pin. -/
theorem exec_tick_sample (hmet : ¬ HoldMet now st s) (htime : elapsed s.cfg now s.tStart < s.cfg.wakeTimeoutMs)
    (htoggle : ¬ s.cfg.toggleMs ≤ elapsed s.cfg now s.tToggle) :
    exec (.tick now st) s = .next { s with
      tHold := (if st = s.cfg.readyLevel then s.tHold else now),
      trace := s.trace ++ [.response .ok .none] } := by
  rw [exec_tick_of_wakeIteration hw (wakeIteration_eq_ok.2 (.inr ⟨hmet, .inr ⟨htime, rfl⟩⟩)), sampleHold_eq,
    toggleStep, if_neg htoggle]
  rfl

end

theorem waking_of_not_idle {s : State} (h : s.wst ≠ .idle) : s.wst = .waking := by
  cases hwst : s.wst with
  | idle => exact absurd hwst h
  | waking => rfl

/-- Settles O32: one lemma per branch of the request. -/
theorem tickResult : Obligations.TickResult := by
  intro s now st htx
  by_cases hidle : s.wst = .idle
  · rw [if_pos hidle]
    exact exec_tick_idle hidle now st
  have hw := waking_of_not_idle hidle
  rw [if_neg hidle]
  by_cases hmet : HoldMet now st s
  · rw [if_pos hmet]
    exact exec_tick_success hw htx hmet
  rw [if_neg hmet]
  by_cases htime : s.cfg.wakeTimeoutMs ≤ elapsed s.cfg now s.tStart
  · rw [if_pos htime]
    exact exec_tick_timeout hw hmet htime
  rw [if_neg htime]
  by_cases htoggle : s.cfg.toggleMs ≤ elapsed s.cfg now s.tToggle
  · rw [if_pos htoggle]
    exact exec_tick_toggle hw hmet (Nat.lt_of_not_le htime) htoggle
  · rw [if_neg htoggle]
    exact exec_tick_sample hw hmet (Nat.lt_of_not_le htime) htoggle

/-! ### The busy hold (R94) -/

/-- Whatever a TICK does, it ends in a response. -/
theorem execTick_responds {now : Nat} {st : Bool} {s t : State} (h : execTick now st s = .next t) :
    ∃ u code data, t = respond code data u := by
  unfold execTick at h
  split at h
  · cases h; exact ⟨_, _, _, rfl⟩
  · obtain ⟨-, -, hsuccess⟩ | ⟨-, ⟨-, rfl⟩ | ⟨-, rfl⟩⟩ := wakeIteration_eq_ok.1 (outcomeOf_eq_next.1 h)
    · obtain ⟨-, rfl⟩ := wakeSuccess_eq_ok.1 hsuccess
      exact ⟨_, _, _, rfl⟩
    · exact ⟨_, _, _, rfl⟩
    · exact ⟨_, _, _, rfl⟩

theorem respond_trace_getLast (code : Code) (data : Data) (s : State) :
    (respond code data s).trace.getLast? = some (.response code data) := by
  rw [respond_trace, List.getLast?_concat]

/-- Settles O33: each held request has the hold as its first branch, and each of the others ends in `respond`. -/
theorem busyHold : Obligations.BusyHold := by
  intro s hw htx
  refine ⟨fun p now st i hi => ?_, fun p now st i hi => ?_⟩
  · simp only [List.mem_cons, List.not_mem_nil, or_false] at hi
    obtain rfl | rfl | rfl | rfl | rfl := hi
    · exact buildRequest_waking .ack p hw
    · exact buildRequest_waking .noack p hw
    · exact sendRequest_waking .ack p now st hw
    · exact sendRequest_waking .noack p now st hw
    · exact execSendRaw_waking p now st hw
  · simp only [List.mem_cons, List.not_mem_nil, or_false] at hi
    obtain rfl | rfl | rfl | rfl := hi
    · exact ⟨_, _, _, rfl, respond_trace_getLast _ _ s⟩
    · exact ⟨_, _, _, rfl, respond_trace_getLast _ _ s⟩
    · obtain ⟨t, ht⟩ := execTick_answers htx now st
      obtain ⟨u, code, data, rfl⟩ := execTick_responds ht
      exact ⟨_, code, data, ht, respond_trace_getLast code data u⟩
    · exact ⟨_, _, _, rfl, respond_trace_getLast _ _ _⟩

/-- Settles O38: each encoder call is the one SEND it expands to (R66), which is held. -/
theorem reportEncodersAreHeldDuringAWake : Obligations.ReportEncodersAreHeldDuringAWake := by
  intro s now st host timeout mods buttons x y v h u d i hw hi
  have hsend : ∃ a p, exec i s = sendRequest a p now st s := by
    simp only [List.mem_cons, List.not_mem_nil, or_false] at hi
    obtain rfl | rfl | rfl | rfl | rfl | rfl | rfl | rfl | rfl := hi <;> exact ⟨_, _, rfl⟩
  obtain ⟨a, p, hsend⟩ := hsend
  rw [hsend]
  exact sendRequest_waking a p now st hw

/-! ### Runs of TICKs -/

theorem execAll_append_of_next {is js : List Instr} {s t : State} (h : execAll is s = .next t) :
    execAll (is ++ js) s = execAll js t := by
  induction is generalizing s with
  | nil => cases h; rfl
  | cons i is ih =>
    rw [List.cons_append]
    rw [execAll] at h
    cases hi : exec i s with
    | next u =>
      rw [hi] at h
      rw [execAll_cons_of_next hi]
      exact ih h
    | fault e => rw [hi] at h; cases h
    | refused r => rw [hi] at h; cases h

theorem ticks_succ (t0 n : Nat) (level : Nat → Bool) :
    ticks t0 (n + 1) level = ticks t0 n level ++ [.tick (t0 + (n + 1)) (level (n + 1))] := by
  simp [ticks, List.range_succ]

/-- The run up to and including a further TICK. -/
theorem execAll_ticks_succ {t0 n : Nat} {level : Nat → Bool} {s t u : State}
    (h : execAll (ticks t0 n level) s = .next t)
    (htick : exec (.tick (t0 + (n + 1)) (level (n + 1))) t = .next u) :
    execAll (ticks t0 (n + 1) level) s = .next u := by
  rw [ticks_succ, execAll_append_of_next h]
  exact execAll_cons_of_next htick

/-- Times counted from `t0` differ by their distance, while it is within the range of the timer (R10). -/
theorem elapsed_offset {c : Config} {a b : Nat} (hba : b ≤ a) (ha : a < 2 ^ c.timerWidth) (t0 : Nat) :
    elapsed c (t0 + a) (t0 + b) = a - b := by
  have hmod := elapsed_eq_emod c (t0 + a) (t0 + b)
  have hlt : ((a - b : Nat) : Int) < 2 ^ c.timerWidth := by exact_mod_cast (Nat.sub_le a b).trans_lt ha
  have hdiff : ((t0 + a : Nat) - (t0 + b : Nat) : Int) = (a - b : Nat) := by omega
  rw [hdiff, Int.emod_eq_of_lt (Int.natCast_nonneg _) hlt] at hmod
  exact_mod_cast hmod

/-! ### The timeline of a wake (R102)

Times are counted in milliseconds from the entry of the wake at `t0`. -/

/-- A wake is entered at `t0` in `s`, with the reference intervals of toggle and window (R95, R102). -/
structure EnteredAt (t0 : Nat) (s : State) : Prop where
  wst : s.wst = .waking
  start : s.tStart = t0
  toggle : s.tToggle = t0
  hold : s.tHold = t0
  pin : s.wakeOut = true
  toggleMs : s.cfg.toggleMs = 20
  window : s.cfg.wakeTimeoutMs = 100
  width : 11 ≤ s.cfg.timerWidth

/-- The level of the pin `n` ms into a wake: high for 20 ms, low for 20 ms, and so on (R101). -/
def squareWave (n : Nat) : Bool := decide (n / 20 % 2 = 0)

/-- When the hold was last broken, `n` ms into a wake: at the entry, at a sample that is not ready, or at a toggle
(R99). -/
def holdBroken (ready : Bool) (level : Nat → Bool) : Nat → Nat
  | 0 => 0
  | n + 1 => if level (n + 1) = ready ∧ (n + 1) % 20 ≠ 0 then holdBroken ready level n else n + 1

/-- What the first `n` TICKs of a wake show: a response each, and before it the toggle where one is due. -/
def wakeTrace (t0 : Nat) : Nat → List Obs
  | 0 => []
  | n + 1 =>
    wakeTrace t0 n ++ (if (n + 1) % 20 = 0 then [.wakeOut (t0 + (n + 1)) (squareWave (n + 1))] else []) ++
      [.response .ok .none]

/-- The state `n` ms into the wake that is entered at `t0` in `s`, if it has not ended. -/
def wakingFor (t0 n : Nat) (level : Nat → Bool) (s : State) : State :=
  { s with
    wakeOut := squareWave n, tToggle := t0 + n / 20 * 20, tHold := t0 + holdBroken s.cfg.readyLevel level n,
    trace := s.trace ++ wakeTrace t0 n }

/-- The TICK at `n` ms finds the module ready and the hold long enough, if the wake has not ended before (R99). -/
def SucceedsAt (n : Nat) (level : Nat → Bool) (s : State) : Prop :=
  level n = s.cfg.readyLevel ∧ s.cfg.debounceMs ≤ n - holdBroken s.cfg.readyLevel level (n - 1)

theorem holdBroken_le (ready : Bool) (level : Nat → Bool) (n : Nat) : holdBroken ready level n ≤ n := by
  induction n with
  | zero => exact le_rfl
  | succ n ih =>
    unfold holdBroken
    split_ifs <;> omega

/-- The status pin is ready from `k` ms into the wake on, and not before. -/
def ReadyFrom (k : Nat) (ready : Bool) (level : Nat → Bool) : Prop :=
  ∀ j, 1 ≤ j → j ≤ 100 → (level j = ready ↔ k ≤ j)

/-- The hold is last broken by the sample before the module is ready or by the last toggle, whichever is later. -/
theorem ReadyFrom.holdBroken_eq {ready : Bool} {level : Nat → Bool} {k n : Nat} (hlevel : ReadyFrom k ready level)
    (hn : n ≤ 100) :
    holdBroken ready level n = max (min n (k - 1)) (n / 20 * 20) := by
  induction n with
  | zero => simp [holdBroken]
  | succ n ih =>
    simp only [holdBroken, hlevel (n + 1) (by omega) hn, ih (by omega)]
    split_ifs <;> omega

/-- The time at which a wake succeeds whose module is ready from `k` ms on (R102): 4 ms later, or 5 ms after a toggle
that falls in between. -/
def SendTime (k n : Nat) : Prop :=
  (∃ j, 1 ≤ j ∧ j ≤ 4 ∧ k ≤ 20 * j ∧ 20 * j < k + 4 ∧ n = 20 * j + 5) ∨
    ((∀ j, 1 ≤ j → j ≤ 4 → ¬ (k ≤ 20 * j ∧ 20 * j < k + 4)) ∧ n = k + 4)

section
variable {k n : Nat}

theorem SendTime.bounds (hn : SendTime k n) (hk1 : 1 ≤ k) (hk96 : k ≤ 96) : 5 ≤ n ∧ n ≤ 100 := by
  obtain ⟨j, hj1, hj4, -, -, rfl⟩ | ⟨-, rfl⟩ := hn <;> omega

/-- By the send time the hold has lasted 5 ms since the sample before `k` and since the last toggle. -/
theorem SendTime.hold_met (hn : SendTime k n) (hk1 : 1 ≤ k) (hk96 : k ≤ 96) :
    k ≤ n ∧ 5 ≤ n - max (min (n - 1) (k - 1)) ((n - 1) / 20 * 20) := by
  obtain ⟨j, -, -, hkj, -, rfl⟩ | ⟨hno, rfl⟩ := hn
  · omega
  · have hlast := hno ((k + 3) / 20)
    omega

/-- Before the send time the hold is too short, if it runs at all. -/
theorem SendTime.not_hold_met {i : Nat} (hn : SendTime k n) (hi : i < n) :
    ¬ (k ≤ i ∧ 5 ≤ i - max (min (i - 1) (k - 1)) ((i - 1) / 20 * 20)) := by
  obtain ⟨j, -, -, -, hjk, rfl⟩ | ⟨-, rfl⟩ := hn <;> omega

end

theorem squareWave_succ (n : Nat) :
    squareWave (n + 1) = if (n + 1) % 20 = 0 then !squareWave n else squareWave n := by
  unfold squareWave
  split_ifs with h
  · rw [← decide_not, decide_eq_decide]; omega
  · rw [decide_eq_decide]; omega

@[simp] theorem txOutput_riseEdge (now : Nat) (s : State) : txOutput (riseEdge now s) = [] := by
  unfold riseEdge
  split <;> rfl

@[simp] theorem txOutput_wakeTrace (t0 n : Nat) : txOutput (wakeTrace t0 n) = [] := by
  induction n with
  | zero => rfl
  | succ n ih =>
    rw [wakeTrace, txOutput_append, txOutput_append, ih]
    split <;> rfl

theorem responses_append (a b : List Obs) : responses (a ++ b) = responses a ++ responses b :=
  List.filterMap_append

theorem wakeEdges_append (a b : List Obs) : wakeEdges (a ++ b) = wakeEdges a ++ wakeEdges b :=
  List.filterMap_append

theorem responses_wakeTrace (t0 n : Nat) : responses (wakeTrace t0 n) = List.replicate n (.ok, .none) := by
  induction n with
  | zero => rfl
  | succ n ih =>
    rw [wakeTrace, responses_append, responses_append, ih, List.replicate_succ']
    split <;> simp [responses]

/-- The pin changes every 20 ms, to low first. -/
theorem wakeEdges_wakeTrace (t0 n : Nat) :
    wakeEdges (wakeTrace t0 n) =
      (List.range (n / 20)).map fun i => (t0 + 20 * (i + 1), squareWave (20 * (i + 1))) := by
  induction n with
  | zero => rfl
  | succ n ih =>
    rw [wakeTrace, wakeEdges_append, wakeEdges_append, ih]
    split_ifs with h
    · obtain ⟨hquot, htime⟩ : (n + 1) / 20 = n / 20 + 1 ∧ n + 1 = 20 * (n / 20 + 1) := by omega
      rw [hquot, List.range_succ, List.map_append, htime]
      simp [wakeEdges]
    · have hquot : (n + 1) / 20 = n / 20 := by omega
      rw [hquot]
      simp [wakeEdges]

section
variable {t0 n : Nat} {level : Nat → Bool} {s : State} (hs : EnteredAt t0 s)
include hs

theorem EnteredAt.lt_two_pow (hn : n ≤ 100) : n < 2 ^ s.cfg.timerWidth := by
  have hwidth := Nat.pow_le_pow_right (n := 2) (by omega) hs.width
  omega

theorem EnteredAt.wakingFor_zero : wakingFor t0 0 level s = s := by
  calc wakingFor t0 0 level s
      = { s with wakeOut := s.wakeOut, tToggle := s.tToggle, tHold := s.tHold, trace := s.trace ++ [] } := by
        rw [hs.pin, hs.toggle, hs.hold]
        rfl
    _ = s := by rw [List.append_nil]

theorem EnteredAt.elapsed_start (hn : n ≤ 100) : elapsed s.cfg (t0 + n) s.tStart = n := by
  rw [hs.start]
  exact elapsed_offset (Nat.zero_le n) (hs.lt_two_pow hn) t0

/-- The condition of success in the running wake is that of the timeline. -/
theorem EnteredAt.holdMet_iff (hn : n < 100) :
    HoldMet (t0 + (n + 1)) (level (n + 1)) (wakingFor t0 n level s) ↔ SucceedsAt (n + 1) level s := by
  have hle := holdBroken_le s.cfg.readyLevel level n
  have hhold : elapsed s.cfg (t0 + (n + 1)) (wakingFor t0 n level s).tHold =
      n + 1 - holdBroken s.cfg.readyLevel level n :=
    elapsed_offset (by omega) (hs.lt_two_pow hn) t0
  exact and_congr_right fun _ => iff_of_eq (congrArg (s.cfg.debounceMs ≤ ·) hhold)

/-- A TICK inside the window that is not a success leads to the next state of the running wake: it toggles every
20 ms and otherwise samples the status pin. -/
theorem EnteredAt.exec_tick (hn : n + 1 < 100) (hwait : ¬ SucceedsAt (n + 1) level s) :
    exec (.tick (t0 + (n + 1)) (level (n + 1))) (wakingFor t0 n level s) = .next (wakingFor t0 (n + 1) level s) := by
  have hmet := (hs.holdMet_iff (level := level) (by omega : n < 100)).not.2 hwait
  have htime : elapsed s.cfg (t0 + (n + 1)) s.tStart < s.cfg.wakeTimeoutMs := by
    rw [hs.elapsed_start hn.le, hs.window]
    exact hn
  have helapsed : elapsed s.cfg (t0 + (n + 1)) (wakingFor t0 n level s).tToggle = n + 1 - n / 20 * 20 :=
    elapsed_offset (by omega) (hs.lt_two_pow hn.le) t0
  have hdue : s.cfg.toggleMs ≤ elapsed s.cfg (t0 + (n + 1)) (wakingFor t0 n level s).tToggle ↔
      (n + 1) % 20 = 0 := by
    rw [helapsed, hs.toggleMs]
    omega
  by_cases h20 : (n + 1) % 20 = 0
  · rw [exec_tick_toggle (s := wakingFor t0 n level s) hs.wst hmet htime (hdue.2 h20)]
    have hlast : (n + 1) / 20 * 20 = n + 1 := by omega
    simp [wakingFor, squareWave_succ, holdBroken, wakeTrace, h20, hlast]
  · rw [exec_tick_sample (s := wakingFor t0 n level s) hs.wst hmet htime (hdue.not.2 h20)]
    have hlast : (n + 1) / 20 = n / 20 := by omega
    by_cases hready : level (n + 1) = s.cfg.readyLevel <;>
      simp [wakingFor, squareWave_succ, holdBroken, wakeTrace, h20, hlast, hready]

/-- Until its first success, and inside its window, a wake goes on. -/
theorem EnteredAt.execAll_ticks (hn : n < 100) (hwait : ∀ j, 1 ≤ j → j ≤ n → ¬ SucceedsAt j level s) :
    execAll (ticks t0 n level) s = .next (wakingFor t0 n level s) := by
  induction n with
  | zero => exact congrArg Host.Outcome.next hs.wakingFor_zero.symm
  | succ n ih =>
    have hrun := ih (by omega) fun j h1 hj => hwait j h1 (by omega)
    exact execAll_ticks_succ hrun (hs.exec_tick hn (hwait (n + 1) (by omega) le_rfl))

end

/-- Settles O35: a module that is never ready meets no hold, so that the wake goes on until the window is over. -/
theorem neverReadyTimesOutAtTheWindow : Obligations.NeverReadyTimesOutAtTheWindow := by
  intro s t0 level hwst hstart htoggle hhold hpin htoggleMs hwindow hwidth hlevel
  have hs : EnteredAt t0 s := ⟨hwst, hstart, htoggle, hhold, hpin, htoggleMs, hwindow, hwidth⟩
  have hrun (n : Nat) (hn : n < 100) : execAll (ticks t0 n level) s = .next (wakingFor t0 n level s) :=
    hs.execAll_ticks hn fun j h1 hj h => hlevel j h1 (by omega) h.1
  refine ⟨fun n hn => ⟨_, hrun n hn, hwst, rfl⟩, ?_⟩
  have hmet : ¬ HoldMet (t0 + 100) (level 100) (wakingFor t0 99 level s) := fun h =>
    hlevel 100 (by omega) le_rfl h.1
  have htime : s.cfg.wakeTimeoutMs ≤ elapsed s.cfg (t0 + 100) s.tStart := by
    rw [hs.elapsed_start le_rfl, hwindow]
  have hend := exec_tick_timeout (s := wakingFor t0 99 level s) hwst hmet htime
  have hrise : riseEdge (t0 + 100) (wakingFor t0 99 level s) = [] := rfl
  rw [hrise, List.append_nil] at hend
  refine ⟨_, execAll_ticks_succ (hrun 99 (by omega)) hend, rfl, rfl, ?_, ?_, ?_⟩
  · simp [wakingFor]
  · rw [wakeEdges_append, wakingFor, wakeEdges_append, wakeEdges_wakeTrace, List.append_assoc]
    rfl
  · rw [responses_append, wakingFor, responses_append, responses_wakeTrace]
    rfl

theorem ReadyFrom.succeedsAt_iff {k n : Nat} {level : Nat → Bool} {s : State}
    (hlevel : ReadyFrom k s.cfg.readyLevel level) (hdebounce : s.cfg.debounceMs = 5) (h1 : 1 ≤ n) (hn : n ≤ 100) :
    SucceedsAt n level s ↔ k ≤ n ∧ 5 ≤ n - max (min (n - 1) (k - 1)) ((n - 1) / 20 * 20) := by
  rw [SucceedsAt, hlevel n h1 hn, hdebounce, hlevel.holdBroken_eq (by omega)]

/-- Settles O36: the TICK at `n` is the first that finds the hold long enough. -/
theorem readyModuleIsSentToAfterTheHold : Obligations.ReadyModuleIsSentToAfterTheHold := by
  intro s t0 k n level hwst hstart htoggle hhold hpin htx htoggleMs hdebounce hwindow hwidth hk1 hk96 hlevel hn
  have hs : EnteredAt t0 s := ⟨hwst, hstart, htoggle, hhold, hpin, htoggleMs, hwindow, hwidth⟩
  have hfrom : ReadyFrom k s.cfg.readyLevel level := hlevel
  have hsend : SendTime k n := hn
  obtain ⟨hn5, hn100⟩ := hsend.bounds hk1 hk96
  have hrun (m : Nat) (hm : m < n) : execAll (ticks t0 m level) s = .next (wakingFor t0 m level s) :=
    hs.execAll_ticks (by omega) fun i h1 hi =>
      (hfrom.succeedsAt_iff hdebounce h1 (by omega)).not.2 (hsend.not_hold_met (by omega))
  refine ⟨fun m hm => ⟨_, hrun m hm, hwst, by simp [wakingFor]⟩, ?_⟩
  have hsucceeds : SucceedsAt n level s :=
    (hfrom.succeedsAt_iff hdebounce (by omega) hn100).2 (hsend.hold_met hk1 hk96)
  obtain ⟨m, rfl⟩ : ∃ m, n = m + 1 := Nat.exists_eq_add_of_le' (by omega)
  have hend := exec_tick_success (s := wakingFor t0 m level s) hwst htx ((hs.holdMet_iff (by omega)).2 hsucceeds)
  refine ⟨_, execAll_ticks_succ (hrun m (by omega)) hend, rfl, rfl, ?_, by simp⟩
  simp [wakingFor]

end Sys2Proof.Machine

/-! PROOFS. The statements on 45_protocol.md: the dispatcher's turn and the frames it ignores (R104, R105, R109), its
action for each inbound command byte (R106 to R108, R118), and the SEND of each report encoder (R110 to R117). -/

namespace Sys2Proof.Machine

open Sys2Proof

/-! ### The dispatcher's turn (R104, R105, R109) -/

/-- Settles O7: a turn of the dispatcher takes the frame and decodes its payload. -/
theorem stepRunsTheDispatchedCommand : Obligations.StepRunsTheDispatchedCommand := fun _ _ _ _ _ => step_dispatch

/-- A frame whose payload does not decode is taken, and nothing else happens. -/
theorem step_dispatch_ignored {s : State} {f : List Byte} {fs : List (List Byte)} {rest : List Offer} {e : DecodeError}
    (hframes : s.frames = f :: fs) (h : decode s.cfg (.notify (framePayload f)) = .error e) :
    step { s with offers := .dispatch :: rest } = .next { s with offers := rest, frames := fs } := by
  simp [step, fetch, fetchDispatch, hframes, h]

/-- What the dispatcher reacts to has one of the eight command bytes of R104. -/
theorem command_of_decodeNotify {p : List Byte} {i : Instr} (h : decodeNotify p = .ok i) :
    ∃ cmd ∈ p.head?, cmd ∈ ([0x26, 0x27, 0xA1, 0xA2, 0xA3, 0xA4, 0xA5, 0xA7] : List Byte) := by
  unfold decodeNotify at h
  cases p with
  | nil => cases h
  | cons cmd rest =>
    refine ⟨cmd, rfl, ?_⟩
    dsimp only at h
    split at h
    case h_9 => cases h
    all_goals next hcmd =>
      obtain rfl := byte_eq_ofNat hcmd
      decide

/-- Settles O9: a payload that decodes has a command byte of R104, so this one does not decode. -/
theorem unknownCommandsAreIgnored : Obligations.UnknownCommandsAreIgnored := by
  intro s f fs rest hframes hunknown
  cases hdecode : decode s.cfg (.notify (framePayload f)) with
  | error e => exact step_dispatch_ignored hframes hdecode
  | ok i =>
    obtain ⟨cmd, hhead, hknown⟩ := command_of_decodeNotify hdecode
    exact absurd hknown (hunknown cmd hhead)

/-! ### The payload of a delivered frame, byte by byte (R48, R105) -/

theorem take_drop_eq_frameByte_cons {f : List Byte} {i n : Nat} (hi : i < f.length) (hn : 1 ≤ n) :
    (f.drop i).take n = frameByte f i :: (f.drop (i + 1)).take (n - 1) := by
  obtain ⟨n, rfl⟩ := Nat.exists_eq_add_of_le' hn
  rw [List.drop_eq_getElem_cons hi, List.take_succ_cons, frameByte, List.getD_eq_getElem f 0 hi, Nat.add_sub_cancel]

section
variable {f : List Byte} (hlen : f.length = 7 + frameLen f)
include hlen

theorem framePayload_eq_command_cons (hL : 1 ≤ frameLen f) :
    framePayload f = frameByte f 4 :: (f.drop 5).take (frameLen f - 1) :=
  take_drop_eq_frameByte_cons (by omega) hL

/-- The bytes after the command byte, where there are any. -/
theorem take_drop_five_eq_cons (hL : 2 ≤ frameLen f) :
    (f.drop 5).take (frameLen f - 1) = frameByte f 5 :: (f.drop 6).take (frameLen f - 1 - 1) :=
  take_drop_eq_frameByte_cons (by omega) (by omega)

theorem length_take_drop_five : ((f.drop 5).take (frameLen f - 1)).length = frameLen f - 1 := by
  rw [List.length_take, List.length_drop]
  omega

end

/-! ### Raw HID (R107) -/

theorem exec_cmdRawHidIn (d : List Byte) (s : State) :
    exec (.cmdRawHidIn d) s = .next { s with trace := s.trace ++ [.call (.rawHidReceive d d.length)] } := rfl

/-- Settles O40: the payload is the command byte and the bytes that are forwarded, of which there are `L - 1`. -/
theorem rawHidIsForwarded : Obligations.RawHidIsForwarded := by
  refine ⟨fun s d => exec_cmdRawHidIn d s, fun s f fs rest hframes hlen hL hcmd => ?_⟩
  have hdecode : decode s.cfg (.notify (framePayload f)) = .ok (.cmdRawHidIn ((f.drop 5).take (frameLen f - 1))) := by
    rw [framePayload_eq_command_cons hlen hL, hcmd]
    rfl
  rw [step_dispatch hframes hdecode, exec_cmdRawHidIn, length_take_drop_five hlen]

/-! ### Link status (R108, R118) -/

/-- The six link-status instructions on one payload (R104). -/
def linkStatusInstrs (rest : List Byte) : List Instr :=
  [.cmdLinkStatusA1 rest, .cmdLinkStatusA2 rest, .cmdLinkStatusA3 rest, .cmdLinkStatusA4 rest, .cmdLinkStatusA5 rest,
    .cmdLinkStatusA7 rest]

theorem exec_of_mem_linkStatusInstrs {rest : List Byte} {i : Instr} (hi : i ∈ linkStatusInstrs rest) (s : State) :
    exec i s = .next (linkStatus rest s) := by
  simp only [linkStatusInstrs, List.mem_cons, List.not_mem_nil, or_false] at hi
  obtain rfl | rfl | rfl | rfl | rfl | rfl := hi <;> rfl

theorem decodeNotify_linkStatus {cmd : Byte} (h : cmd ∈ ([0xA1, 0xA2, 0xA3, 0xA4, 0xA5, 0xA7] : List Byte))
    (rest : List Byte) : ∃ i ∈ linkStatusInstrs rest, decodeNotify (cmd :: rest) = .ok i := by
  simp only [List.mem_cons, List.not_mem_nil, or_false] at h
  obtain rfl | rfl | rfl | rfl | rfl | rfl := h <;> exact ⟨_, by simp [linkStatusInstrs], rfl⟩

/-- The calls for a sub-status value, in R108's order. -/
def subStatusCalls (c : Config) : Nat → List Obs
  | 0 => [.call (.setRetryCount 0), .call (.setReportIntervalMs c.defaultIntervalMs)]
  | 1 => [.call (.setRetryCount 0), .call (.setReportIntervalMs (c.defaultIntervalMs + c.degradedDeltaMs))]
  | 2 => [.call (.setRetryCount c.poorRetry)]
  | _ => []

theorem subStatusCalls_other (c : Config) {n : Nat} (h0 : n ≠ 0) (h1 : n ≠ 1) (h2 : n ≠ 2) :
    subStatusCalls c n = [] := by
  unfold subStatusCalls
  split <;> trivial

/-- All that link status does with a sub-status byte. -/
theorem linkStatus_cons (sub : Byte) (rest : List Byte) (s : State) :
    linkStatus (sub :: rest) s = { s with trace := s.trace ++ subStatusCalls s.cfg sub.toNat } := by
  unfold linkStatus
  dsimp only
  split_ifs with h0 h1 h2
  · subst h0
    simp [linkHealthy, emitCall, observe, subStatusCalls]
  · subst h1
    simp [linkDegraded, emitCall, observe, subStatusCalls]
  · subst h2
    rfl
  · rw [subStatusCalls_other s.cfg (mt byte_eq_ofNat h0) (mt byte_eq_ofNat h1) (mt byte_eq_ofNat h2), List.append_nil]

/-- Settles O41: the six instructions are one meaning, whose calls are those of the sub-status value. -/
theorem linkStatusCalls : Obligations.LinkStatusCalls := by
  intro s sub rest
  refine ⟨fun i hi => exec_of_mem_linkStatusInstrs hi s, fun i hi => ?_⟩
  rw [exec_of_mem_linkStatusInstrs hi s, linkStatus_cons]
  split
  case h_1 h | h_2 h | h_3 h => rw [h]; rfl
  case h_4 h0 h1 h2 => rw [subStatusCalls_other s.cfg h0 h1 h2, List.append_nil]

/-- The dispatcher's step on a frame with a link-status code and a payload after it. -/
theorem step_dispatch_linkStatus {s : State} {f : List Byte} {fs : List (List Byte)} {rest : List Offer} {cmd : Byte}
    {p : List Byte} (hframes : s.frames = f :: fs) (hpayload : framePayload f = cmd :: p)
    (hcmd : cmd ∈ ([0xA1, 0xA2, 0xA3, 0xA4, 0xA5, 0xA7] : List Byte)) :
    step { s with offers := .dispatch :: rest } = .next (linkStatus p { s with offers := rest, frames := fs }) := by
  obtain ⟨i, hi, hdecode⟩ := decodeNotify_linkStatus hcmd p
  rw [← hpayload] at hdecode
  rw [step_dispatch hframes hdecode, exec_of_mem_linkStatusInstrs hi]

/-- Settles O42: the sub-status byte is the first byte after the command byte, if `L` counts one. -/
theorem linkStatusFrames : Obligations.LinkStatusFrames := by
  intro s f fs rest hframes hlen hL hcmd
  rw [step_dispatch_linkStatus hframes (framePayload_eq_command_cons hlen hL) hcmd]
  split_ifs with hshort
  · have hL1 : frameLen f - 1 = 0 := by omega
    rw [hL1, List.take_zero, List.append_nil]
    rfl
  · rw [take_drop_five_eq_cons hlen (Nat.le_of_not_lt hshort), linkStatus_cons]
    rfl

/-- Settles O43: the payload of the built frame is read back, and its sub-status 2 is the poor link. -/
theorem poorLinkFrameSetsOnlyTheRetryCount : Obligations.PoorLinkFrameSetsOnlyTheRetryCount := by
  intro s a more fs rest hcfg hfit hframes
  have hpayload : framePayload (build s.cfg a (0xA3 :: 0x02 :: more)) = 0xA3 :: 0x02 :: more :=
    framePayload_build s.cfg a (payload_le_255 hcfg hfit)
  rw [step_dispatch_linkStatus hframes hpayload (by decide), linkStatus_cons]
  rfl

/-! ### The LED notification (R94, R106, R124) -/

theorem exec_cmdLed (rest : List Byte) (s : State) :
    exec (.cmdLed rest) s = .next { s with issued := s.issued ++ [s.cfg.ledResponse] } := rfl

theorem exec_sendInstr (c : Config) (a : AckSel) (p : List Byte) (now : Nat) (st : Bool) (s : State) :
    exec (sendInstr c (a, p) now st) s = sendRequest a p (c.sample now) st s := by
  cases a <;> rfl

/-- The dispatcher's turn to offer its oldest issued SEND, which it keeps while a wake runs. -/
theorem step_issued {s : State} {p : AckSel × List Byte} {ps : List (AckSel × List Byte)} {now : Nat} {st : Bool}
    {rest : List Offer} (hissued : s.issued = p :: ps) :
    step { s with offers := .issued now st :: rest } =
      exec (sendInstr s.cfg p now st)
        (if s.wst = .waking then { s with offers := rest } else { s with offers := rest, issued := ps }) := by
  simp [step, fetch, fetchIssued, hissued]

/-- Settles O39: what is offered is the SEND, which a wake holds. -/
theorem ledNotificationIssuesOneSend : Obligations.LedNotificationIssuesOneSend := by
  refine ⟨fun s rest => exec_cmdLed rest s, fun s a p ps now st rest hissued => ⟨fun hw => ?_, fun hw => ?_⟩⟩
  · rw [step_issued hissued, if_pos hw, exec_sendInstr]
    exact sendRequest_waking a p _ st hw
  · have hnot : s.wst ≠ .waking := by simp [hw]
    rw [step_issued hissued, if_neg hnot]
    cases a <;> rfl

/-! ### The report encoders (R110 to R117) -/

/-- The high byte of a sign-extended byte repeats its sign (R10, R114). -/
theorem hiByte_sext16 (b : Byte) : hiByte (sext16 b) = if b.msb then 0xFF else 0x00 := by
  ext i hi
  have hhigh : 8 + i < 16 := by omega
  have hbit : (hiByte (sext16 b))[i] = b.msb := by simp [hiByte, sext16, BitVec.getElem_signExtend, hhigh]
  rw [hbit]
  cases b.msb
  case false => exact (BitVec.getElem_zero hi).symm
  case true => exact (BitVec.getElem_allOnes i hi).symm

/-- The mouse report sends each coordinate's byte and a byte that repeats its sign (R114). -/
theorem exec_cmdMouse (buttons x y v h : Byte) (now : Nat) (st : Bool) (s : State) :
    exec (.cmdMouse buttons x y v h now st) s =
      sendRequest .ack [0x25, buttons, x, (if x.msb then 0xFF else 0x00), y, (if y.msb then 0xFF else 0x00), v, h]
        now st s := by
  have hpayload : exec (.cmdMouse buttons x y v h now st) s =
      sendRequest .ack
        [0x25, buttons, loByte (sext16 x), hiByte (sext16 x), loByte (sext16 y), hiByte (sext16 y), v, h]
        now st s := rfl
  rw [hpayload, loByte_sext16, loByte_sext16, hiByte_sext16, hiByte_sext16]

/-- A command byte, the modifiers and a bitmap of the fixed width fit a payload (R111). -/
theorem nkroBitmap_fits {c : Config} (hc : c.Wf) : 2 + c.nkroBitmapBytes ≤ c.maxPayload := by
  obtain ⟨-, -, -, hnkro⟩ := hc
  exact hnkro

/-- Settles O37: each encoder call is the one SEND it expands to (R66), of a payload that fits. -/
theorem reportEncodersSendTheirPayload : Obligations.ReportEncodersSendTheirPayload := by
  intro s now st hs hw hmax
  have hidle : s.wst ≠ .waking := by simp [hw]
  have hsend (a : AckSel) {p : List Byte} (hp : p.length ≤ s.cfg.maxPayload) :
      Sends (build s.cfg a p) now st s (sendRequest a p now st s) :=
    sendRequest_sends a now st hs hidle (Nat.not_lt.2 hp)
  -- every payload of a fixed layout has at most 9 bytes
  have hfixed (a : AckSel) {p : List Byte} (hp : p.length ≤ 9) := hsend a (hp.trans hmax)
  refine ⟨fun r hr => ?keyboard, fun mods bitmap hwidth => ?nkro, fun u => ?consumer, fun u => ?system,
    fun buttons x y v h => ?mouse, fun d hd => ?rawHid, fun host timeout => ?setPairing, fun host timeout => ?openAdv,
    ?closeAdv⟩
  case keyboard => exact hfixed .ack (by simp [hr])
  case nkro =>
    have hnkro := nkroBitmap_fits hs.cfg
    have hlen : ([0x22, mods] ++ bitmap).length = 2 + s.cfg.nkroBitmapBytes := by
      rw [List.length_append, hwidth, List.length_cons, List.length_singleton]
    exact hsend .ack (hlen ▸ hnkro)
  case consumer => exact hfixed .ack (by simp)
  case system => exact hfixed .ack (by simp)
  case mouse =>
    rw [exec_cmdMouse]
    exact hfixed .ack (by simp)
  case rawHid =>
    have hlen : ([0x27] ++ d).length = d.length + 1 := rfl
    exact hsend .ack (by omega)
  case setPairing => exact hfixed .noack (by simp)
  case openAdv => exact hfixed .noack (by simp)
  case closeAdv => exact hfixed .noack (by simp)

/-! ### The width of the NKRO bitmap (R111) -/

theorem decodeReport_nkro (c : Config) (mods : Byte) (bitmap : List Byte) (now : Nat) (st : Bool) :
    decodeReport c (0x22 :: mods :: bitmap) now st =
      if bitmap.length = c.nkroBitmapBytes then .ok (.cmdNkro mods bitmap (c.sample now) st)
      else .error (.badLayout 0x22) := rfl

/-- An encoder call that does not decode is refused (log entry 10). -/
theorem step_report_refused {s : State} {p : List Byte} {now : Nat} {st : Bool} {rest : List Offer} {e : DecodeError}
    (h : decode s.cfg (.report p now st) = .error e) :
    step { s with offers := .report p now st :: rest } = .refused .notAnEncoderCall := by
  simp [step, fetch, fetchReport, h]

/-- Settles O59: the decoder checks the width, and a call of the fixed width has a payload that fits the length byte. -/
theorem nkroCallsHaveTheFixedWidth : Obligations.NkroCallsHaveTheFixedWidth := by
  intro s mods bitmap now st rest hcfg
  have hdecode := decodeReport_nkro s.cfg mods bitmap now st
  refine ⟨fun hwidth => ?_, fun hwidth => ?_⟩
  · rw [if_pos hwidth] at hdecode
    have hnkro := nkroBitmap_fits hcfg
    have hlen : (0x22 :: mods :: bitmap).length = 2 + s.cfg.nkroBitmapBytes := by
      rw [List.length_cons, List.length_cons, hwidth, Nat.add_comm 2]
    have hbyte : (0x22 :: mods :: bitmap).length ≤ 255 := payload_le_255 hcfg (hlen ▸ hnkro)
    exact ⟨step_report hdecode, (frameLen_build hbyte s.cfg .ack).trans hlen, hnkro⟩
  · rw [if_neg hwidth] at hdecode
    exact step_report_refused hdecode

end Sys2Proof.Machine

/-! PROOFS. The statements on 60_exceptions.md: the numbers of the codes (R119) and how an instruction ends, a failure
writing no state (R122, R123). -/

namespace Sys2Proof.Machine

open Sys2Proof

/-! ### The numbers of the codes (R119) -/

theorem Code.ofByte_toByte (c : Code) : Code.ofByte c.toByte = some c := by
  cases c <;> rfl

/-- The codes in the order of R119's table. -/
def Code.table : List Code :=
  [.ok, .headerMismatch, .crcMismatch, .terminatorMismatch, .wakeTimeout, .payloadTooLong, .malformed, .illegalRequest,
    .aborted, .pending, .inactivityReset, .sent, .frameValid]

theorem Code.mem_table (c : Code) : c ∈ Code.table := by
  cases c <;> decide

theorem Code.map_toByte_table : Code.table.map Code.toByte = (List.range 0x0D).map (BitVec.ofNat 8) := rfl

/-- The number of a code is its place in the table, so the numbers are 0 to 0x0C. -/
theorem Code.exists_toByte_eq_iff (b : Byte) : (∃ c : Code, c.toByte = b) ↔ b.toNat ≤ 0x0C := by
  calc (∃ c : Code, c.toByte = b)
      ↔ b ∈ Code.table.map Code.toByte := by simp [Code.mem_table]
    _ ↔ ∃ n < 0x0D, BitVec.ofNat 8 n = b := by simp [Code.map_toByte_table]
    _ ↔ b.toNat ≤ 0x0C := by
      constructor
      · rintro ⟨n, hn, rfl⟩
        rw [BitVec.toNat_ofNat]
        omega
      · intro hb
        exact ⟨b.toNat, by omega, by rw [BitVec.ofNat_toNat, BitVec.setWidth_eq]⟩

/-- Settles O58: reading a number back is by the constructors, and the other two clauses are about the table. -/
theorem resultCodeNumbers : Obligations.ResultCodeNumbers :=
  ⟨Code.ofByte_toByte, Code.exists_toByte_eq_iff, Code.map_toByte_table⟩

/-! ### What adds no response (R11, R16) -/

@[simp] theorem responses_nil : responses [] = [] := rfl

@[simp] theorem responses_response (c : Code) (d : Data) (tr : List Obs) :
    responses (.response c d :: tr) = (c, d) :: responses tr := rfl

@[simp] theorem responses_held (tr : List Obs) : responses (.held :: tr) = responses tr := rfl

@[simp] theorem responses_tx (bs : List Byte) (tr : List Obs) : responses (.tx bs :: tr) = responses tr := rfl

@[simp] theorem responses_frameOut (f : List Byte) (tr : List Obs) : responses (.frameOut f :: tr) = responses tr := rfl

@[simp] theorem responses_call (c : Call) (tr : List Obs) : responses (.call c :: tr) = responses tr := rfl

@[simp] theorem setWakeOut_responses (now : Nat) (level : Bool) (s : State) :
    responses (setWakeOut now level s).trace = responses s.trace := by
  rw [setWakeOut_trace]
  split
  · rfl
  · rw [responses_append]; exact List.append_nil _

@[simp] theorem toggleStep_responses (now : Nat) (s : State) :
    responses (toggleStep now s).trace = responses s.trace := by
  obtain ⟨-, h⟩ | ⟨-, h⟩ := toggleStep_cases now s
  · rw [h]; exact setWakeOut_responses now _ s
  · rw [h]

theorem responses_subStatusCalls (c : Config) (n : Nat) : responses (subStatusCalls c n) = [] := by
  unfold subStatusCalls
  split <;> rfl

theorem linkStatus_responses (rest : List Byte) (s : State) :
    responses (linkStatus rest s).trace = responses s.trace := by
  cases rest with
  | nil => rfl
  | cons sub rest => rw [linkStatus_cons, responses_append, responses_subStatusCalls, List.append_nil]

theorem Consumed.responses_eq {b : Byte} {s u : State} (h : Consumed b s u) :
    responses u.trace = responses s.trace := by
  obtain ⟨-, htrace⟩ | ⟨-, -, -, htrace⟩ := h.delivery <;> simp [htrace, responses_append]

/-! ### How an instruction ends (R11, R122, R123) -/

/-- How an instruction run in `s` can end, with the resulting state: at most one response, and with one that is neither
OK nor Pending nothing but that response. -/
inductive Ended (s : State) : State → Prop
  /-- the request is held (R94), or the dispatcher acts (R106 to R108) -/
  | unanswered {t : State} (h : responses t.trace = responses s.trace) : Ended s t
  /-- the response is all that happens (R123) -/
  | responded (code : Code) (data : Data) : Ended s (respond code data s)
  /-- the request is performed, giving `u`, and answered -/
  | performed {u : State} (code : Code) (data : Data) (h : responses u.trace = responses s.trace)
      (hcode : code = .ok ∨ code = .pending) : Ended s (respond code data u)

theorem ended_hold (s : State) : Ended s (hold s) := .unanswered (by simp [responses_append])

theorem buildRequest_ended {a : AckSel} {p : List Byte} {s t : State} (h : buildRequest a p s = .next t) :
    Ended s t := by
  unfold buildRequest at h
  split at h
  case isTrue => cases h; exact ended_hold s
  case isFalse =>
    split at h
    case isTrue => cases h; exact .responded _ _
    case isFalse =>
      obtain ⟨u, hload, rfl⟩ := except_map_eq_ok.1 (outcomeOf_eq_next.1 h)
      exact .performed _ _ (by rw [txLoad_trace hload]) (.inl rfl)

/-- The load and the wake start that SEND and SEND_RAW share (R95 to R97). -/
theorem load_wakeStart_ended {bs : List Byte} {now : Nat} {st : Bool} {s t : State}
    (h : outcomeOf ((txLoad bs s).bind (wakeStart now st)) = .next t) : Ended s t := by
  obtain ⟨u, hload, hwake⟩ := except_bind_eq_ok.1 (outcomeOf_eq_next.1 h)
  obtain ⟨-, -, rfl⟩ | ⟨-, rfl⟩ := wakeStart_eq_ok.1 hwake
  · exact .performed _ _ (by simp [responses_append, txLoad_trace hload]) (.inl rfl)
  · exact .performed _ _ (by simp [enterWake_trace, txLoad_trace hload]) (.inr rfl)

theorem sendRequest_ended {a : AckSel} {p : List Byte} {now : Nat} {st : Bool} {s t : State}
    (h : sendRequest a p now st s = .next t) : Ended s t := by
  unfold sendRequest at h
  split at h
  case isTrue => cases h; exact ended_hold s
  case isFalse =>
    split at h
    case isTrue => cases h; exact .responded _ _
    case isFalse => exact load_wakeStart_ended h

theorem execSendRaw_ended {bs : List Byte} {now : Nat} {st : Bool} {s t : State}
    (h : execSendRaw bs now st s = .next t) : Ended s t := by
  unfold execSendRaw at h
  split at h
  case isTrue => cases h; exact ended_hold s
  case isFalse =>
    split at h
    case isTrue => cases h; exact .responded _ _
    case isFalse => exact load_wakeStart_ended h

/-- A wake that times out is no failure of its TICK: the code is OK, and the timeout is its result data (R98, R119). -/
theorem execTick_ended {now : Nat} {st : Bool} {s t : State} (h : execTick now st s = .next t) : Ended s t := by
  unfold execTick at h
  split at h
  case h_1 => cases h; exact .responded _ _
  case h_2 =>
    obtain ⟨-, -, hsuccess⟩ | ⟨-, ⟨-, rfl⟩ | ⟨-, rfl⟩⟩ := wakeIteration_eq_ok.1 (outcomeOf_eq_next.1 h)
    · obtain ⟨-, rfl⟩ := wakeSuccess_eq_ok.1 hsuccess
      exact .performed _ _ (by simp [responses_append]) (.inl rfl)
    · exact .performed _ _ (by simp [endWake_trace]) (.inl rfl)
    · exact .performed _ _ (by simp) (.inl rfl)

/-- A frame that fails validation is no failure of its POLL: the code is OK, and the failure is an RX event (R91). -/
theorem PollEffect.ended {now : Nat} {x : Option Byte} {s t : State} (h : PollEffect now s x t) : Ended s t := by
  cases h with
  | noByte => exact .performed _ _ (by simp) (.inl rfl)
  | byte b evs u h => exact .performed _ _ (by simp [h.responses_eq]) (.inl rfl)

theorem exec_ended {i : Instr} {s t : State} (h : exec i s = .next t) : Ended s t := by
  cases i with
  | crc | validate => cases h; exact .responded _ _
  | buildAck | buildNoack => exact buildRequest_ended h
  | sendAck | sendNoack | cmdSetPairing | cmdOpenAdv | cmdCloseAdv | cmdKeyboard | cmdNkro | cmdConsumer | cmdSystem
  | cmdMouse | cmdRawHidOut => exact sendRequest_ended h
  | sendRaw => exact execSendRaw_ended h
  | poll => exact (execPoll_effect h).ended
  | tick => exact execTick_ended h
  | reset now => cases h; exact .performed _ _ (by simp) (.inl rfl)
  | cmdLed => cases h; exact .unanswered rfl
  | cmdRawHidIn => cases h; exact .unanswered (by simp [responses_append])
  | cmdLinkStatusA1 rest | cmdLinkStatusA2 rest | cmdLinkStatusA3 rest | cmdLinkStatusA4 rest
  | cmdLinkStatusA5 rest | cmdLinkStatusA7 rest => cases h; exact .unanswered (linkStatus_responses rest s)

/-- The one response an instruction adds is the one it ended with. -/
theorem responses_respond_eq_iff {s u : State} {c code : Code} {d data : Data}
    (h : responses u.trace = responses s.trace) :
    responses (respond c d u).trace = responses s.trace ++ [(code, data)] ↔ c = code ∧ d = data := by
  simp [responses_append, h]

/-- Settles O55: an instruction that does more than respond answers OK or Pending, or not at all. -/
theorem failuresWriteNothing : Obligations.FailuresWriteNothing := by
  intro s t i code data h hresp hok hpending
  cases exec_ended h with
  | unanswered hsame => simp [hsame] at hresp
  | responded =>
    obtain ⟨rfl, rfl⟩ := (responses_respond_eq_iff rfl).1 hresp
    rfl
  | performed _ _ hsame hcode =>
    obtain ⟨rfl, -⟩ := (responses_respond_eq_iff hsame).1 hresp
    exact absurd hcode (not_or.2 ⟨hok, hpending⟩)

end Sys2Proof.Machine

/-! PROOFS. The statement on 70_reset_and_hazards.md: what a RESET writes and answers, and what it leaves (R131). -/

namespace Sys2Proof.Machine

open Sys2Proof

/-! ### The RESET request (R131) -/

/-- `resetState` keeps the pin, so the rise observed as the pin is driven high is the rise from the level before the
RESET (R29). -/
theorem setWakeOut_resetState (now : Nat) (s : State) :
    setWakeOut now true (resetState s) =
      { resetState s with wakeOut := true, trace := s.trace ++ riseEdge now s } :=
  setWakeOut_true_eq now (resetState s)

/-- RESET as one update of the state it finds: the reset values, the high pin, and its observation, a rise of the pin
before the response. The report of an aborted wake is read from the state before the reset. -/
theorem execReset_eq (now : Nat) (s : State) :
    execReset now s = .next
      { resetState s with
        wakeOut := true,
        trace := s.trace ++ riseEdge now s ++
          [.response .ok (if s.wst = .waking then .event .aborted else .none)] } := by
  rw [execReset, setWakeOut_resetState]
  rfl

/-- Settles O44: `resetState` writes the reset values of R39, and nothing else but the pin and the trace changes. The
configuration and the queues outside R39 (log entry 16) stay. -/
theorem resetRequestResult : Obligations.ResetRequestResult := by
  intro s now
  exact execReset_eq now s

end Sys2Proof.Machine
